-- ==== Sys2Proof/Word.lean ====
section
/-! DEFINITION. The words of MCP3008_XACT: bytes and the three-byte frame (00_scope R6, R7). -/

namespace Sys2Proof

/-- Eight bits; bit 0 is the least significant (R6). -/
abbrev Byte := BitVec 8

/-- An ordered triple of bytes, byte 0 sent and received first (R7, R29). -/
structure Frame where
  b0 : Byte
  b1 : Byte
  b2 : Byte
  deriving DecidableEq, Repr, Inhabited

end Sys2Proof
end

