-- ==== Sys2Proof/Syntax.lean ====
section
/-! DEFINITION. The operations and frames of spec/opcode_table.json as one inductive type, one
constructor a row (30_encoding R42, R49, R52, R53), and the words that carry them. -/

namespace Sys2Proof

/-- The conversion mode (00_scope R11: ConversionMode). At a bit-level port 1 is single-ended and
0 differential (10_state R14). -/
inductive Mode where
  | singleEnded
  | differential
  deriving DecidableEq, Repr, Inhabited

/-- One constructor per row of the opcode table. Channel operands have `CH_W` = 8 bits (R5). -/
inductive Instr where
  /-- CMD.SE: the single-ended command frame of a channel, put on the bus (R43, R45, R59). -/
  | cmdSe (channel : BitVec 8)
  /-- CMD.DIFF: the differential command frame of a channel, put on the bus (R43, R45, R59). -/
  | cmdDiff (channel : BitVec 8)
  /-- RSP: a reply frame, read for its value (R46, R65). -/
  | rsp (frame : Frame)
  /-- ENCODE (R56). -/
  | encode (mode : Mode) (channel : BitVec 8)
  /-- TRANSACT (R57). -/
  | transact (mode : Mode) (channel : BitVec 8)
  /-- DECODE (R65). -/
  | decode (rx : Frame)
  /-- READ (R69). -/
  | read (mode : Mode) (channel : BitVec 8)
  /-- CURRENT (R72). -/
  | current
  /-- ADVANCE (R73, R74). -/
  | advance
  /-- ITERATE (R88). -/
  | iterate
  /-- STOP (R89). -/
  | stop
  /-- RESET (R115). -/
  | reset
  deriving DecidableEq, Repr

/-- A word as it arrives, in one of the three binary formats of R42: an operation with its operands
at the command port (OP), a command frame (CMD24) or a reply frame (RSP24). Which of the three it is
comes from where it arrives, not from its bits: every 24-bit pattern is a reply (R46). The frames are
the 24-bit numbers F of R7. DESIGN CHOICE (log entry 2): the OP word is 32 bits wide, op in bits 3:0,
mode in bit 4, channel in bits 15:8, a reply frame F in bits 31:8. -/
inductive PortWord where
  | op (w : BitVec 32)
  | cmd (f : BitVec 24)
  | rsp (f : BitVec 24)
  deriving DecidableEq, Repr

end Sys2Proof
end

