-- ==== Sys2Proof/Config.lean ====
section
/-! DEFINITION. The implementation parameters of 00_scope R5 and the free values: constants with no
body, of which nothing can be proved. -/

namespace Sys2Proof

/-- What the device answers to one exchange (20_memory R38, R39). -/
inductive BusResult where
  | ok (rx : Frame)
  | fail
  deriving DecidableEq, Repr, Inhabited

/-- What the sink answers to one append (20_memory R40). -/
inductive SinkResult where
  | ok
  | fail
  deriving DecidableEq, Repr, Inhabited

namespace Config

/-- `N_DEVICE`: channels of the converter; the bound of the range check (R5). -/
def nDevice : Nat := 8
/-- `START_BYTE` (R5). -/
def startByte : Byte := 0x01#8
/-- `PAD_BYTE` (R5; 90_conflicts C8: always sent as zero). -/
def padByte : Byte := 0x00#8
/-- `MODE_SEL_SE` (R5, R44). UNVERIFIED: the spec's own number, from general
knowledge (93 G1; log entry 7). -/
def modeSelSe : Nat := 8
/-- `MODE_SEL_DIFF` (R5, R44). UNVERIFIED: the spec's own number, from general
knowledge (93 G1; log entry 7). -/
def modeSelDiff : Nat := 0
/-- `SENTINEL`: -1 in `VAL_W` = 16 bits (R5, R9). -/
def sentinel : BitVec 16 := 0xFFFF#16
/-- `BUF_ENTRIES` (R5). -/
def bufEntries : Nat := 8
/-- `SETTLE_DELAY`: open; no rule reads it (R5, R109). -/
opaque settleDelay : Nat
/-- `BUS_CLOCK_HZ`: open; no rule reads it (R5, R127). -/
opaque busClockHz : Nat

/-- The device's answer at the n-th draw: any reply, or a failure (R39, U1, U19; log entry 1). -/
opaque busDraw : Nat → BusResult
/-- The sink's answer at the n-th draw (R40, U19; log entry 1). -/
opaque sinkDraw : Nat → SinkResult
/-- `cur` where the spec leaves it unspecified (R20, U5; log entry 5). -/
opaque openCur : Nat → BitVec 4
/-- `val` where the spec leaves it unspecified (R20, U5; log entry 5). -/
opaque openVal : Nat → BitVec 10
/-- `val_ok` where the spec leaves it unspecified (R20, U5; log entry 5). -/
opaque openValOk : Nat → Bool
/-- The frame at the port beside a tag that says there is none (R49; log entry 5). -/
opaque openPortFrame : Nat → BitVec 24
/-- READ's 16 bits beside TransactionFailure (95_test_vectors 2.4: unspecified; log entry 5). -/
opaque openPortResult : Nat → BitVec 16

end Config
end Sys2Proof
end

