-- ==== Sys2Proof/WellFormed.lean ====
section
/-! DEFINITION. Which instructions the spec's encodings can write: a command frame has a three-bit
channel field (30_encoding R43: F[14:12], 0 to 7); every other operand fills its field. -/

namespace Sys2Proof

/-- The instruction has an encoding. -/
def Instr.wellFormed : Instr → Bool
  | .cmdSe channel => decide (channel.toNat ≤ 7)
  | .cmdDiff channel => decide (channel.toNat ≤ 7)
  | .rsp _ => true
  | .encode _ _ => true
  | .transact _ _ => true
  | .decode _ => true
  | .read _ _ => true
  | .current => true
  | .advance => true
  | .iterate => true
  | .stop => true
  | .reset => true

end Sys2Proof
end

