-- ==== Sys2Proof/Decode.lean ====
section
/-! DEFINITION. Decoding the words of the three binary formats, and encoding, both from
30_encoding R43 to R46 and R49 and the rows of the opcode table. -/

namespace Sys2Proof

/-- Why a word is no instruction. -/
inductive DecodeError where
  /-- An operation code 0x9 to 0xF (R49, R50 (d)). -/
  | reservedOp (op : BitVec 4)
  /-- A CMD24 word that is none of the sixteen command frames of R45 (R50 (a)). -/
  | notACommandFrame (f : BitVec 24)
  deriving DecidableEq, Repr

/-- The frame as the number `F = b0 * 65536 + b1 * 256 + b2` (R7). -/
def Frame.toWord (f : Frame) : BitVec 24 := f.b0 ++ f.b1 ++ f.b2

/-- The frame whose number is `w` (R7). -/
def Frame.ofWord (w : BitVec 24) : Frame :=
  ⟨w.extractLsb' 16 8, w.extractLsb' 8 8, w.extractLsb' 0 8⟩

/-- The mode's bit: 1 is single-ended (R14, R43: the same polarity as `sel[3]`). -/
def Mode.bit : Mode → BitVec 1
  | .singleEnded => 1#1
  | .differential => 0#1

/-- The mode a bit stands for (R14). -/
def Mode.ofBit (b : BitVec 1) : Mode := if b = 1#1 then .singleEnded else .differential

/-- The bits that both command frames fix (R45). -/
def cmdMask : BitVec 24 := 0xFF8FFF#24
/-- Match value of CMD.SE (R45). -/
def cmdSeMatch : BitVec 24 := 0x018000#24
/-- Match value of CMD.DIFF (R45). -/
def cmdDiffMatch : BitVec 24 := 0x010000#24

/-- The channel field F[14:12] of a command frame (R43). -/
def cmdChannel (f : BitVec 24) : BitVec 8 := (f.extractLsb' 12 3).setWidth 8

/-- The mode operand of an OP word (R49; place: log entry 2). -/
def opMode (w : BitVec 32) : Mode := Mode.ofBit (w.extractLsb' 4 1)
/-- The channel operand of an OP word (R49; place: log entry 2). -/
def opChannel (w : BitVec 32) : BitVec 8 := w.extractLsb' 8 8
/-- The reply frame operand of an OP word (R49; place: log entry 2). -/
def opFrame (w : BitVec 32) : Frame := Frame.ofWord (w.extractLsb' 8 24)

/-- An operation at the command port (R49). Operand wires an operation does not use are ignored. -/
def decodeOp (w : BitVec 32) : Except DecodeError Instr :=
  match (w.extractLsb' 0 4).toNat with
  | 0 => .ok (.encode (opMode w) (opChannel w))
  | 1 => .ok (.transact (opMode w) (opChannel w))
  | 2 => .ok (.decode (opFrame w))
  | 3 => .ok (.read (opMode w) (opChannel w))
  | 4 => .ok .current
  | 5 => .ok .advance
  | 6 => .ok .iterate
  | 7 => .ok .stop
  | 8 => .ok .reset
  | _ => .error (.reservedOp (w.extractLsb' 0 4))

/-- A command frame (R45: mask and match over F). -/
def decodeCmd (f : BitVec 24) : Except DecodeError Instr :=
  if f &&& cmdMask = cmdSeMatch then .ok (.cmdSe (cmdChannel f))
  else if f &&& cmdMask = cmdDiffMatch then .ok (.cmdDiff (cmdChannel f))
  else .error (.notACommandFrame f)

/-- A reply frame: every pattern is one (R46). -/
def decodeRsp (f : BitVec 24) : Except DecodeError Instr := .ok (.rsp (Frame.ofWord f))

/-- The instruction a word is, or why it is none. -/
def decode : PortWord → Except DecodeError Instr
  | .op w => decodeOp w
  | .cmd f => decodeCmd f
  | .rsp f => decodeRsp f

/-- An OP word with a mode and a channel (R49; places: log entry 2). -/
def opWordModeChannel (op : BitVec 4) (mode : Mode) (channel : BitVec 8) : BitVec 32 :=
  0#16 ++ channel ++ 0#3 ++ mode.bit ++ op

/-- An OP word with a reply frame (R49; place: log entry 2). -/
def opWordFrame (op : BitVec 4) (rx : Frame) : BitVec 32 := rx.toWord ++ 0#4 ++ op

/-- An OP word with no operands (R49). -/
def opWordPlain (op : BitVec 4) : BitVec 32 := 0#28 ++ op

/-- A command frame's fields: start, mode bit, channel, zero nibble, pad (R43). -/
def cmdWord (mode : Mode) (channel : BitVec 8) : BitVec 24 :=
  0x01#8 ++ mode.bit ++ channel.extractLsb' 0 3 ++ 0#4 ++ 0x00#8

/-- The word of a well-formed instruction. -/
def encode : Instr → PortWord
  | .cmdSe channel => .cmd (cmdWord .singleEnded channel)
  | .cmdDiff channel => .cmd (cmdWord .differential channel)
  | .rsp frame => .rsp frame.toWord
  | .encode mode channel => .op (opWordModeChannel 0x0#4 mode channel)
  | .transact mode channel => .op (opWordModeChannel 0x1#4 mode channel)
  | .decode rx => .op (opWordFrame 0x2#4 rx)
  | .read mode channel => .op (opWordModeChannel 0x3#4 mode channel)
  | .current => .op (opWordPlain 0x4#4)
  | .advance => .op (opWordPlain 0x5#4)
  | .iterate => .op (opWordPlain 0x6#4)
  | .stop => .op (opWordPlain 0x7#4)
  | .reset => .op (opWordPlain 0x8#4)

/-- A row of the opcode table with the bits `w`: 24 bits is a frame, in the direction that reads it
as a command frame where it is one and as a reply otherwise; up to 32 bits otherwise is an OP word,
the bits above `nbits` zero. -/
def tableWord (nbits w : Nat) : Option PortWord :=
  if nbits = 24 then
    let f := BitVec.ofNat 24 w
    match decodeCmd f with
    | .ok _ => some (.cmd f)
    | .error _ => some (.rsp f)
  else if nbits ≤ 32 then some (.op (BitVec.ofNat 32 (w % 2 ^ nbits)))
  else none

/-- What the decoder reads from a row's bits. -/
def decodeTableWord (nbits w : Nat) : Option Instr :=
  match tableWord nbits w with
  | some p =>
    match decode p with
    | .ok i => some i
    | .error _ => none
  | none => none

end Sys2Proof
end

