-- ==== Sys2Proof/Machine/State.lean ====
section
/-! DEFINITION. The whole state of the block (10_state R12), the host's inputs (R14), the event
history (R25), the reasons to stop, and the state after reset (70 R113). Plain data only. -/

namespace Sys2Proof.Machine

/-- The states of the SampleLoop machine (R15, R79). -/
inductive RunState where
  | stopped
  | running
  deriving DecidableEq, Repr

/-- Why the loop stopped: the six codes of 60 R94. Codes 6 and 7 are never written (U9). -/
inductive StopCause where
  | none
  | stopSignal
  | busInitFailure
  | gpioInitFailure
  | transactionFailure
  | sinkFailure
  deriving DecidableEq, Repr

/-- The step of the iteration that executes next (R19). -/
inductive Phase where
  | p1
  | p2
  | p3
  | p4
  | p5
  | p6
  deriving DecidableEq, Repr

/-- How ADVANCE wraps (R5, R73, R74). -/
inductive WrapPolicy where
  | strict
  | referenceQuirk
  deriving DecidableEq, Repr

/-- The sample buffer: the entries stored since reset, by index, strictly rising; an index that is
not listed reads as `none` (R18, R28). -/
abbrev Memory := List (Nat × BitVec 10)

/-- The events of R25, each with what it carries. -/
inductive Event where
  | exchange (tx : Frame) (result : BusResult)
  | store (i : BitVec 4) (v : BitVec 10)
  | delay
  | record (ch : BitVec 4) (v : BitVec 10) (result : SinkResult)
  | advance (old new : BitVec 4)
  | stop (cause : StopCause)
  | reset
  deriving DecidableEq, Repr

/-- ENCODE's result (R56). -/
inductive EncodeResult where
  | frame (tx : Frame)
  | invalidChannel
  deriving DecidableEq, Repr

/-- TRANSACT's result (R9, R57). -/
inductive TransactResult where
  | ok (rx : Frame)
  | invalidChannel
  | transactionFailure
  deriving DecidableEq, Repr

/-- READ's result (R9, R69). -/
inductive ReadResult where
  | value (v : BitVec 10)
  | sentinel
  | transactionFailure
  deriving DecidableEq, Repr

/-- What an operation issued at the command port answers (R49), or a host read of the buffer (R41). -/
inductive OpResult where
  | none
  | encoded (r : EncodeResult)
  | transacted (r : TransactResult)
  | decoded (v : BitVec 10)
  | read (r : ReadResult)
  | current (idx : BitVec 4)
  | entry (v : BitVec 10)
  deriving DecidableEq, Repr

/-- The same at a bit-level port (R49, R9). -/
inductive PortResult where
  | none
  | encode (valid : BitVec 1) (tx : BitVec 24)
  | transact (tag : BitVec 2) (rx : BitVec 24)
  | decode (value : BitVec 10)
  | read (tag : BitVec 2) (result : BitVec 16)
  | current (idx : BitVec 4)
  | entry (value : BitVec 10)
  deriving DecidableEq, Repr

/-- The levels the host holds on the block's inputs (R14). -/
structure Inputs where
  cfgMode : Mode
  cfgChannelCount : BitVec 4
  cfgWrapPolicy : WrapPolicy
  initBusOk : Bool
  initGpioOk : Bool
  stop : Bool
  deriving DecidableEq, Repr

/-- What the host can do to the block (70 R118), one move between two steps of the block. No move
changes `cfg_channel_count` or `cfg_wrap_policy` (R123, U7; log entry 11). -/
inductive HostMove where
  /-- a command at one of the ports (R49, R53) -/
  | command (w : PortWord)
  /-- sets the level of the stop signal (R90, R100) -/
  | setStop (level : Bool)
  /-- changes `cfg_mode`, which only the next reset reads (R17) -/
  | setMode (mode : Mode)
  /-- reports the two initialisation outcomes (R114, R116) -/
  | setInit (bus gpio : Bool)
  /-- applies the `reset` input (R112) -/
  | reset
  /-- reads one entry of the buffer (R41) -/
  | readEntry (i : Nat)
  /-- does nothing, so that the block runs on (R80) -/
  | idle
  deriving DecidableEq, Repr

/-- The state: R12's nine elements, the event history, the inputs, and the model's own fields. -/
structure State where
  /-- the channel sequencer's counter (R13) -/
  idx : BitVec 4
  /-- whether the loop runs (R15) -/
  runState : RunState
  /-- why it stopped (R16) -/
  stopCause : StopCause
  /-- the session's mode (R17) -/
  modeQ : Mode
  /-- the sample buffer (R18) -/
  buf : Memory
  /-- the step pointer (R19) -/
  phase : Phase
  /-- the index this iteration uses (R20) -/
  cur : BitVec 4
  /-- the value of this iteration (R20) -/
  val : BitVec 10
  /-- whether step 2 produced a value (R20) -/
  valOk : Bool
  /-- the event history of the session, oldest first (R25) -/
  events : List Event
  /-- the host's inputs (R14) -/
  inputs : Inputs
  /-- the model's own: the last operation's result at the command port (R49; log entry 2) -/
  result : OpResult
  /-- the model's own: how many results were given (log entries 2 and 5) -/
  resultSeq : Nat
  /-- the model's own: the device's next answers, before free draws (R39, R52; log entry 1) -/
  busScript : List BusResult
  /-- the model's own: the sink's next answers, before free draws (R40, R52; log entry 1) -/
  sinkScript : List SinkResult
  /-- the model's own: how many free values were taken (log entries 1 and 5) -/
  draws : Nat
  /-- the model's own: the host's moves still to come, oldest first (R118; log entries 6 and 16) -/
  inbox : List HostMove
  deriving DecidableEq, Repr

/-- Why a step faults. Both are faults of the reader of the buffer, not of the block. -/
inductive Fault where
  /-- Raised by the host move `readEntry` at an entry that is `none`: it has no value (R18, U4).
  Safe: the model stops where a read gives nothing a claim may use. -/
  | emptyEntryRead (i : Nat)
  /-- Raised by the host move `readEntry` at an index above 7: there is no such entry (R35), and R41
  gives no such read. DESIGN CHOICE (log entry 12). Safe: the model stops. -/
  | noSuchEntry (i : Nat)
  deriving DecidableEq, Repr

/-- Why a step is refused. -/
inductive Refusal where
  /-- Raised by an arm of `exec` whose instruction has no meaning yet; no arm does. Safe. -/
  | notModelled (mnemonic : String)
  /-- Raised by `step` for a command word that is no instruction: a reserved operation code
  (R50 (d), U8) or a CMD24 word that is never sent (R50 (a)). Safe: no step. -/
  | undecodable (e : DecodeError)
  /-- Raised by `step` in a state whose `cfg_channel_count` is 0 or above 8: the model has no run
  from such a configuration (R14, U6). Safe: no step. -/
  | illegalChannelCount (n : BitVec 4)
  deriving DecidableEq, Repr

/-- The machine right after reset (R27, R113) with both initialisations succeeded and `stop` = 0.
`cur`, `val`, `valOk` are DESIGN CHOICE (log entry 3); the configuration is DESIGN CHOICE
(log entry 4): the reference count 6 and the default policy of R5. -/
def State.reset : State where
  idx := 0#4
  runState := .running
  stopCause := .none
  modeQ := .singleEnded
  buf := []
  phase := .p1
  cur := 0#4
  val := 0#10
  valOk := false
  events := [.reset]
  inputs :=
    { cfgMode := .singleEnded, cfgChannelCount := 6#4, cfgWrapPolicy := .strict,
      initBusOk := true, initGpioOk := true, stop := false }
  result := .none
  resultSeq := 0
  busScript := []
  sinkScript := []
  draws := 0
  inbox := []

end Sys2Proof.Machine
end

