-- ==== Sys2Proof/Machine/Ops.lean ====
section
/-! DEFINITION. The named operations over the state: the sample buffer, the event history, the two
primitives `BusExchange` and `SinkAppend`, the fatal entry and its only way out, the free values, and
the text of a record. -/

namespace Sys2Proof.Machine

/-- `buf[i]`: `none` where nothing was stored since reset (R18). -/
def Memory.read : Memory → Nat → Option (BitVec 10)
  | [], _ => none
  | (j, v) :: m, i => if j = i then some v else Memory.read m i

/-- `buf[i] <- v`, keeping the entries in rising order (R18, R33). -/
def Memory.write : Memory → Nat → BitVec 10 → Memory
  | [], i, v => [(i, v)]
  | (j, w) :: m, i, v =>
    if j < i then (j, w) :: Memory.write m i v
    else if j = i then (i, v) :: m
    else (i, v) :: (j, w) :: m

/-- Every index is above `lo`, they rise strictly, and none is outside 0 to 7. -/
def Memory.risingFrom : Nat → Memory → Bool
  | _, [] => true
  | lo, (j, _) :: m => decide (lo ≤ j) && decide (j < Config.bufEntries) && Memory.risingFrom (j + 1) m

/-- The canonical form: indices 0 to 7 (R28), strictly rising. -/
def Memory.wf (m : Memory) : Bool := Memory.risingFrom 0 m

/-- `emit E` (R8, R25). -/
def State.emit (s : State) (e : Event) : State := { s with events := s.events ++ [e] }

/-- The result of an operation given at the command port (R49). -/
def State.deliver (s : State) (r : OpResult) : State :=
  { s with result := r, resultSeq := s.resultSeq + 1 }

/-- The device's next answer: its script's (R52), or a free draw (R39; log entries 1 and 8). -/
def State.busAnswer (s : State) : BusResult :=
  match s.busScript with
  | r :: _ => r
  | [] => Config.busDraw s.draws

/-- The sink's next answer: its script's (R52), or a free draw (R40; log entries 1 and 8). -/
def State.sinkAnswer (s : State) : SinkResult :=
  match s.sinkScript with
  | r :: _ => r
  | [] => Config.sinkDraw s.draws

/-- `BusExchange(tx)`: one exchange, one event, no state of the block (R38). -/
def busExchange (tx : Frame) (s : State) : BusResult × State :=
  (s.busAnswer,
    { s with
      events := s.events ++ [.exchange tx s.busAnswer]
      busScript := s.busScript.tail
      draws := s.draws + 1 })

/-- `SinkAppend(ch, v)`: one record handed over, one event, no state of the block (R40). -/
def sinkAppend (ch : BitVec 4) (v : BitVec 10) (s : State) : SinkResult × State :=
  (s.sinkAnswer,
    { s with
      events := s.events ++ [.record ch v s.sinkAnswer]
      sinkScript := s.sinkScript.tail
      draws := s.draws + 1 })

/-- The working registers become unspecified: after an iteration and at RESET (R20, R113, U5). -/
def State.openWork (s : State) : State :=
  { s with
    cur := Config.openCur s.draws
    val := Config.openVal s.draws
    valOk := Config.openValOk s.draws
    draws := s.draws + 1 }

/-- The entry into Stopped, shared by every cause: one indivisible change, nothing else saved or
changed, control goes nowhere (R103). -/
def State.stopEntry (s : State) (cause : StopCause) : State :=
  { s with runState := .stopped, stopCause := cause, events := s.events ++ [.stop cause] }

/-- The part of RESET that gives the run state, the cause and the history (R114, R115, R27): the bus
failure before the pin failure. -/
def State.startUp (s : State) : State :=
  if s.inputs.initBusOk = false then ({ s with events := [.reset] }).stopEntry .busInitFailure
  else if s.inputs.initGpioOk = false then ({ s with events := [.reset] }).stopEntry .gpioInitFailure
  else { s with runState := .running, stopCause := .none, events := [.reset] }

/-- RESET: the one way out of Stopped; there is no return from an error (R105, R112, R113, R115). A new
history begins (R27; DEDUCED: log entry 9). The outside world's scripts and moves are not the block's. -/
def State.resetBlock (s : State) : State :=
  ({ s with
      idx := 0#4
      phase := .p1
      modeQ := s.inputs.cfgMode
      buf := [] }).startUp.openWork

/-- One decimal digit. -/
def digitChar (d : Nat) : Char := Char.ofNat (48 + d)

/-- Decimal digits of a number below `10 ^ fuel`, no leading zeros. -/
def decimalFuel : Nat → Nat → List Char
  | 0, _ => []
  | k + 1, n => if n < 10 then [digitChar n] else decimalFuel k (n / 10) ++ [digitChar (n % 10)]

/-- A channel or a value in decimal, `0` as one digit (R48). -/
def decimal (n : Nat) : List Char := decimalFuel 4 n

/-- The text of a record, `A<channel>: <value>`, no terminator (R48). -/
def recordText (ch : BitVec 4) (v : BitVec 10) : List Char :=
  'A' :: decimal ch.toNat ++ [':', ' '] ++ decimal v.toNat

/-- `1 <= cfg_channel_count <= 8` (R14, U6). -/
def State.configLegal (s : State) : Bool :=
  decide (1 ≤ s.inputs.cfgChannelCount.toNat) && decide (s.inputs.cfgChannelCount.toNat ≤ Config.nDevice)

end Sys2Proof.Machine
end

