-- ==== Sys2Proof/Machine/Operands.lean ====
section
/-! DEFINITION. The operand forms and the arithmetic of frames and values: the mode selector, the
range check, the command frame's assembly, the value's extraction (30_encoding R43 to R47, R55). -/

namespace Sys2Proof.Machine

/-- `modeSelector(mode)` (R44). -/
def modeSelector : Mode → Nat
  | .singleEnded => Config.modeSelSe
  | .differential => Config.modeSelDiff

/-- The range check: `0 <= channel <= N_DEVICE - 1`, the device's range and not `CHANNEL_COUNT`
(R58). -/
def channelInRange (channel : BitVec 8) : Bool := decide (channel.toNat ≤ Config.nDevice - 1)

/-- `tx.b1 = (sel << 4) mod 256` with `sel = modeSelector(mode) + channel` (R44). -/
def selectorByte (mode : Mode) (channel : BitVec 8) : Byte :=
  BitVec.ofNat 8 (((modeSelector mode + channel.toNat) <<< 4) % 256)

/-- The command frame, or `InvalidChannel` (R43, R56). -/
def buildFrame (mode : Mode) (channel : BitVec 8) : EncodeResult :=
  if channelInRange channel then
    .frame ⟨Config.startByte, selectorByte mode channel, Config.padByte⟩
  else .invalidChannel

/-- `((rx.b1 & 0x03) << 8) | rx.b2` in ten bits (R47, R65). -/
def extractValue (rx : Frame) : BitVec 10 :=
  ((rx.b1 &&& 0x03#8).setWidth 10 <<< 8) ||| rx.b2.setWidth 10

/-- `cur` as a channel operand: `zext_8(cur)` (R82). -/
def channelOfIndex (idx : BitVec 4) : BitVec 8 := idx.setWidth 8

end Sys2Proof.Machine
end

