-- ==== Sys2Proof/Machine/Flags.lean ====
section
/-! DEFINITION. There are no condition codes (10_state R22). The flag-like bits are `val_ok`, which
is a field of State written by step 2, and the tag of an operation's result; here are the tags and
the bit-level results of the command port (00_scope R9, 30_encoding R49), and the code numbers of the
status registers (R12, R15, R19, 60 R94). -/

namespace Sys2Proof.Machine

/-- `run_state`: Running is 1 (R12). -/
def RunState.code : RunState → BitVec 1
  | .stopped => 0#1
  | .running => 1#1

/-- `stop_cause` (R94). -/
def StopCause.code : StopCause → BitVec 3
  | .none => 0#3
  | .stopSignal => 1#3
  | .busInitFailure => 2#3
  | .gpioInitFailure => 3#3
  | .transactionFailure => 4#3
  | .sinkFailure => 5#3

/-- `phase`: P1 to P6 are 1 to 6 (R19). -/
def Phase.code : Phase → BitVec 3
  | .p1 => 1#3
  | .p2 => 2#3
  | .p3 => 3#3
  | .p4 => 4#3
  | .p5 => 5#3
  | .p6 => 6#3

/-- `cfg_wrap_policy`: Strict is 0 (R14). -/
def WrapPolicy.code : WrapPolicy → BitVec 1
  | .strict => 0#1
  | .referenceQuirk => 1#1

/-- TRANSACT's tag: 0 Ok, 1 InvalidChannel, 2 TransactionFailure (R49). -/
def TransactResult.tag : TransactResult → BitVec 2
  | .ok _ => 0#2
  | .invalidChannel => 1#2
  | .transactionFailure => 2#2

/-- READ's tag, the same codes (R49). -/
def ReadResult.tag : ReadResult → BitVec 2
  | .value _ => 0#2
  | .sentinel => 1#2
  | .transactionFailure => 2#2

/-- READ's 16-bit result: a value is zero-extended, the sentinel is -1 (R9, R69); beside
TransactionFailure it is a free value (log entry 5). -/
def ReadResult.bits (k : Nat) : ReadResult → BitVec 16
  | .value v => v.setWidth 16
  | .sentinel => Config.sentinel
  | .transactionFailure => Config.openPortResult k

/-- A result as the bits at the port (R49); `k` tells free values apart (log entry 5). -/
def OpResult.toPort (k : Nat) : OpResult → PortResult
  | .none => .none
  | .encoded (.frame tx) => .encode 1#1 tx.toWord
  | .encoded .invalidChannel => .encode 0#1 (Config.openPortFrame k)
  | .transacted (.ok rx) => .transact 0#2 rx.toWord
  | .transacted .invalidChannel => .transact 1#2 (Config.openPortFrame k)
  | .transacted .transactionFailure => .transact 2#2 (Config.openPortFrame k)
  | .decoded v => .decode v
  | .read r => .read r.tag (r.bits k)
  | .current idx => .current idx
  | .entry v => .entry v

/-- The bits the command port shows now. -/
def State.portResult (s : State) : PortResult := s.result.toPort s.resultSeq

end Sys2Proof.Machine
end

