-- ==== Sys2Proof/Machine/Reset.lean ====
section
/-! DEFINITION. RESET (70_reset_and_hazards R112 to R115). -/

namespace Sys2Proof.Machine

/-- RESET at the command port: in any run state, abandoning what was in progress (R112, R115). -/
def execReset (s : State) : Host.Outcome State Fault Refusal := .next (s.resetBlock.deliver .none)

end Sys2Proof.Machine
end

