-- ==== Sys2Proof/Machine/ChannelSequencer.lean ====
section
/-! DEFINITION. ChannelSequencer (42_channel_sequencer): CURRENT and ADVANCE. -/

namespace Sys2Proof.Machine

/-- The index after ADVANCE. Strict tests the incremented value (R73), ReferenceQuirk the old one
(R74); the comparisons are of integers (R55), and both are total on unreachable indices (U13). -/
def nextIndex (policy : WrapPolicy) (count idx : BitVec 4) : BitVec 4 :=
  match policy with
  | .strict => if idx.toNat + 1 ≥ count.toNat then 0#4 else idx + 1#4
  | .referenceQuirk => if idx.toNat ≥ count.toNat then 0#4 else idx + 1#4

/-- ADVANCE under the configured policy, with its event (R73, R74). -/
def State.advance (s : State) : State :=
  let new := nextIndex s.inputs.cfgWrapPolicy s.inputs.cfgChannelCount s.idx
  ({ s with idx := new }).emit (.advance s.idx new)

/-- CURRENT: `idx`, nothing written (R72). -/
def execCurrent (s : State) : Host.Outcome State Fault Refusal :=
  .next (s.deliver (.current s.idx))

/-- ADVANCE issued directly, in any run state (R77, R93). -/
def execAdvance (s : State) : Host.Outcome State Fault Refusal :=
  .next (s.advance.deliver .none)

end Sys2Proof.Machine
end

