-- ==== Sys2Proof/Machine/BusTransaction.lean ====
section
/-! DEFINITION. BusTransaction (40_bus_transaction): the command frames, ENCODE and TRANSACT. -/

namespace Sys2Proof.Machine

/-- TRANSACT: encode, then exactly one exchange; no exchange for an invalid channel; the raw reply
returned; a failure propagated and not retried (R57 to R63). -/
def transact (mode : Mode) (channel : BitVec 8) (s : State) : TransactResult × State :=
  match buildFrame mode channel with
  | .invalidChannel => (.invalidChannel, s)
  | .frame tx =>
    (match s.busAnswer with
      | .ok rx => .ok rx
      | .fail => .transactionFailure,
     (busExchange tx s).2)

/-- CMD.SE: the single-ended command frame of a channel on the bus, one exchange (R45, R57, R59;
DEDUCED: log entry 10). -/
def execCmdSe (channel : BitVec 8) (s : State) : Host.Outcome State Fault Refusal :=
  .next ((transact .singleEnded channel s).2.deliver (.transacted (transact .singleEnded channel s).1))

/-- CMD.DIFF: the differential command frame of a channel on the bus, one exchange (R45, R57, R59;
DEDUCED: log entry 10). -/
def execCmdDiff (channel : BitVec 8) (s : State) : Host.Outcome State Fault Refusal :=
  .next ((transact .differential channel s).2.deliver (.transacted (transact .differential channel s).1))

/-- ENCODE: the frame or `InvalidChannel`; no state, no port, no event (R56). -/
def execEncode (mode : Mode) (channel : BitVec 8) (s : State) : Host.Outcome State Fault Refusal :=
  .next (s.deliver (.encoded (buildFrame mode channel)))

/-- TRANSACT issued directly: the tag goes to its caller, `run_state` is not touched (R57, R98). -/
def execTransact (mode : Mode) (channel : BitVec 8) (s : State) : Host.Outcome State Fault Refusal :=
  .next ((transact mode channel s).2.deliver (.transacted (transact mode channel s).1))

end Sys2Proof.Machine
end

