-- ==== Sys2Proof/Machine/ConversionDecoder.lean ====
section
/-! DEFINITION. ConversionDecoder (41_conversion_decoder): the reply frame, DECODE and READ. -/

namespace Sys2Proof.Machine

/-- READ: TRANSACT, then DECODE of the reply; the sentinel for an invalid channel (R69). -/
def readSample (mode : Mode) (channel : BitVec 8) (s : State) : ReadResult × State :=
  (match (transact mode channel s).1 with
    | .invalidChannel => .sentinel
    | .transactionFailure => .transactionFailure
    | .ok rx => .value (extractValue rx),
   (transact mode channel s).2)

/-- RSP: a reply frame read for its value (R46, R65; DEDUCED: log entry 10). -/
def execRsp (frame : Frame) (s : State) : Host.Outcome State Fault Refusal :=
  .next (s.deliver (.decoded (extractValue frame)))

/-- DECODE: total, pure, no error (R65 to R68). -/
def execDecode (rx : Frame) (s : State) : Host.Outcome State Fault Refusal :=
  .next (s.deliver (.decoded (extractValue rx)))

/-- READ issued directly: no state of the block, at most one exchange (R69). -/
def execRead (mode : Mode) (channel : BitVec 8) (s : State) : Host.Outcome State Fault Refusal :=
  .next ((readSample mode channel s).2.deliver (.read (readSample mode channel s).1))

end Sys2Proof.Machine
end

