-- ==== Sys2Proof/Machine/SampleLoop.lean ====
section
/-! DEFINITION. SampleLoop (43_sample_loop): the six steps, the whole iteration, STOP, and the block
running free. -/

namespace Sys2Proof.Machine

/-- Step 1: `cur <- CURRENT()` (R81). -/
def stepP1 (s : State) : State := { s with cur := s.idx, phase := .p2 }

/-- Step 2: READ in the session's mode. A value is kept; the sentinel is absorbed and leaves `val`
unspecified (R20, log entry 5); a failure is fatal and `phase` stays (R82, R98). -/
def stepP2 (s : State) : State :=
  let r := readSample s.modeQ (channelOfIndex s.cur) s
  match r.1 with
  | .value v => { r.2 with val := v, valOk := true, phase := .p3 }
  | .sentinel =>
    { r.2 with val := Config.openVal r.2.draws, valOk := false, draws := r.2.draws + 1, phase := .p3 }
  | .transactionFailure => r.2.stopEntry .transactionFailure

/-- Step 3: the store, made only with `val_ok = 1` and `cur <= 7` (R18, R83). -/
def stepP3 (s : State) : State :=
  if s.valOk = true ∧ s.cur.toNat < Config.bufEntries then
    ({ s with buf := s.buf.write s.cur.toNat s.val, phase := .p4 }).emit (.store s.cur s.val)
  else { s with phase := .p4 }

/-- Step 4: the settling delay, an event and nothing else (R84, R109; log entry 13). -/
def stepP4 (s : State) : State := ({ s with phase := .p5 }).emit .delay

/-- Step 5: the record handed to the sink when there is a value; a failure is fatal and `phase` stays
(R85, R99). -/
def stepP5 (s : State) : State :=
  if s.valOk = true then
    let r := sinkAppend s.cur s.val s
    match r.1 with
    | .ok => { r.2 with phase := .p6 }
    | .fail => r.2.stopEntry .sinkFailure
  else { s with phase := .p6 }

/-- Step 6: ADVANCE, then the iteration boundary, where the working registers are unspecified (R86,
R20). -/
def stepP6 (s : State) : State := ({ s.advance with phase := .p1 }).openWork

/-- STOP: nothing when Stopped already (R89). -/
def State.stopLoop (s : State) : State :=
  match s.runState with
  | .running => s.stopEntry .stopSignal
  | .stopped => s

/-- The rest of an iteration after step 5, unless step 5 was fatal (R88). -/
def finishIteration (s : State) : State :=
  match s.runState with
  | .running => stepP6 s
  | .stopped => s

/-- The rest of an iteration after step 2, unless step 2 was fatal (R88). -/
def continueIteration (s : State) : State :=
  match s.runState with
  | .running => finishIteration (stepP5 (stepP4 (stepP3 s)))
  | .stopped => s

/-- ITERATE: nothing when Stopped (R93); the stop check, made only here (R90); then the six steps,
ended by a fatal error (R88). -/
def State.iterate (s : State) : State :=
  match s.runState with
  | .stopped => s
  | .running => if s.inputs.stop then s.stopLoop else continueIteration (stepP2 (stepP1 s))

/-- The block running on by itself: the next of the six steps while Running, the stop check at the
boundary only; no step when Stopped (R80, R90, R93). -/
def State.freeRun (s : State) : State :=
  match s.runState with
  | .stopped => s
  | .running =>
    match s.phase with
    | .p1 => if s.inputs.stop then s.stopLoop else stepP1 s
    | .p2 => stepP2 s
    | .p3 => stepP3 s
    | .p4 => stepP4 s
    | .p5 => stepP5 s
    | .p6 => stepP6 s

/-- ITERATE at the command port (R88). -/
def execIterate (s : State) : Host.Outcome State Fault Refusal := .next (s.iterate.deliver .none)

/-- STOP at the command port (R89). -/
def execStop (s : State) : Host.Outcome State Fault Refusal := .next (s.stopLoop.deliver .none)

end Sys2Proof.Machine
end

