-- ==== Sys2Proof/Machine/Dispatch.lean ====
section
/-! DEFINITION. One arm per constructor of Instr. -/

namespace Sys2Proof.Machine

def exec (i : Instr) (s : State) : Host.Outcome State Fault Refusal :=
  match i with
  | .cmdSe channel => Sys2Proof.Machine.execCmdSe channel s
  | .cmdDiff channel => Sys2Proof.Machine.execCmdDiff channel s
  | .rsp frame => Sys2Proof.Machine.execRsp frame s
  | .encode mode channel => Sys2Proof.Machine.execEncode mode channel s
  | .transact mode channel => Sys2Proof.Machine.execTransact mode channel s
  | .decode rx => Sys2Proof.Machine.execDecode rx s
  | .read mode channel => Sys2Proof.Machine.execRead mode channel s
  | .current => Sys2Proof.Machine.execCurrent s
  | .advance => Sys2Proof.Machine.execAdvance s
  | .iterate => Sys2Proof.Machine.execIterate s
  | .stop => Sys2Proof.Machine.execStop s
  | .reset => Sys2Proof.Machine.execReset s

end Sys2Proof.Machine
end

