-- ==== Sys2Proof/Machine/Control.lean ====
section
/-! DEFINITION. How the block and the host take turns: which host move is served, when a command is
taken, and where a command stands before it is (70 R118, R112; 60 R102; 43 R80, R90, R93). -/

namespace Sys2Proof.Machine

/-- A command is taken between iterations or when Stopped: nothing interrupts an iteration (R101,
R36). DEDUCED: log entry 6. -/
def State.acceptsCommand (s : State) : Bool :=
  match s.runState with
  | .stopped => true
  | .running => decide (s.phase = .p1)

/-- The command is RESET, which is honoured at any moment (R102 (a), R112). -/
def isReset : Instr → Bool
  | .reset => true
  | _ => false

/-- A command word is at the port, `s` the state with it taken and `waiting` the state with it still
there: run it, or let the iteration go on by one step; a word that is no instruction is refused (R50).
DESIGN CHOICE (log entry 16): the host's moves are served strictly in order, so a command that waits
holds back every move behind it, a reset and a level of stop among them, to the boundary. -/
def runCommand (w : PortWord) (s waiting : State) : Host.Outcome State Fault Refusal :=
  match decode w with
  | .error e => .refused (.undecodable e)
  | .ok i => if isReset i || s.acceptsCommand then exec i s else .next waiting.freeRun

/-- The host's read port: `buf[i]` for `i` in 0 to 7 (R41); an entry that is `none` is a fault of the
reader (R18, U4). The fault at an index above 7 is a DESIGN CHOICE (log entry 12): R41 gives no such
read. -/
def readEntry (i : Nat) (s : State) : Host.Outcome State Fault Refusal :=
  if i < Config.bufEntries then
    match s.buf.read i with
    | some v => .next (s.deliver (.entry v))
    | none => .fault (.emptyEntryRead i)
  else .fault (.noSuchEntry i)

/-- One host move served, `s` the state with it taken (R118). -/
def serveMove (m : HostMove) (s waiting : State) : Host.Outcome State Fault Refusal :=
  match m with
  | .command w => runCommand w s waiting
  | .setStop level => .next { s with inputs := { s.inputs with stop := level } }
  | .setMode mode => .next { s with inputs := { s.inputs with cfgMode := mode } }
  | .setInit bus gpio => .next { s with inputs := { s.inputs with initBusOk := bus, initGpioOk := gpio } }
  | .reset => .next s.resetBlock
  | .readEntry i => readEntry i s
  | .idle => .next s.freeRun

/-- One step: the next host move, or the block alone; no run from an illegal configuration
(R14, U6; DEDUCED: log entry 11). -/
def controlStep (s : State) : Host.Outcome State Fault Refusal :=
  if s.configLegal then
    match s.inbox with
    | [] => .next s.freeRun
    | m :: rest => serveMove m { s with inbox := rest } s
  else .refused (.illegalChannelCount s.inputs.cfgChannelCount)

/-- `s` with a command first at the port, the block at an iteration boundary if it was in the middle
of one, so that the next step takes it. -/
def State.withCommand (s : State) (w : PortWord) : State :=
  { s with
    inbox := .command w :: s.inbox
    phase := if s.acceptsCommand then s.phase else .p1 }

end Sys2Proof.Machine
end

