-- ==== Sys2Proof/Machine/Step.lean ====
section
/-! DEFINITION. One step of the machine, and the placing of a next instruction. -/

namespace Sys2Proof.Machine

/-- One step (Control.lean says what it does). -/
def step (s : State) : Host.Outcome State Fault Refusal := controlStep s

/-- `s` with a row's bits as the command the next step takes (log entry 6). -/
def State.withFetchWord (s : State) (nbits w : Nat) : State :=
  match tableWord nbits w with
  | some p => s.withCommand p
  | none => s

end Sys2Proof.Machine
end

