-- ==== Sys2Proof/Safety.lean ====
section
/-! DEFINITION. What claims speak of: what a history says, the invariants, runs of operations, what
two states share. -/

namespace Sys2Proof.Machine

/-- `idx` as the history tells it: 0 at Reset, then what each Advance wrote (R25, R77). -/
def indexFrom (events : List Event) : BitVec 4 :=
  events.foldl (fun idx e =>
    match e with
    | .advance _ new => new
    | .reset => 0#4
    | _ => idx) 0#4

/-- `buf[i]` as the history tells it: the value most recently stored since Reset (R18, R25). -/
def storedFrom (events : List Event) (i : Nat) : Option (BitVec 10) :=
  events.foldl (fun v e =>
    match e with
    | .store j w => if j.toNat = i then some w else v
    | .reset => none
    | _ => v) none

/-- The causes of the Stop events, in order (R25). -/
def stopCauses (events : List Event) : List StopCause :=
  events.filterMap (fun e =>
    match e with
    | .stop c => some c
    | _ => none)

/-- The bus traffic, in order (R25). -/
def exchanges (events : List Event) : List (Frame × BusResult) :=
  events.filterMap (fun e =>
    match e with
    | .exchange tx r => some (tx, r)
    | _ => none)

/-- The records handed to the sink, in order (R25). -/
def records (events : List Event) : List (BitVec 4 × BitVec 10 × SinkResult) :=
  events.filterMap (fun e =>
    match e with
    | .record ch v r => some (ch, v, r)
    | _ => none)

/-- The records persisted, in order (R25). -/
def persisted (events : List Event) : List (BitVec 4 × BitVec 10) :=
  events.filterMap (fun e =>
    match e with
    | .record ch v .ok => some (ch, v)
    | _ => none)

/-- One of the sixteen frames of R45, by R43's layout: start byte, low nibble of byte 1 zero, pad. -/
def Frame.isCommand (f : Frame) : Prop := f.b0 = 0x01#8 ∧ f.b1 &&& 0x0F#8 = 0x00#8 ∧ f.b2 = 0x00#8

/-- `idx` within the bound of the policy (R75). -/
def State.indexBounded (s : State) : Prop :=
  match s.inputs.cfgWrapPolicy with
  | .strict => s.idx.toNat < s.inputs.cfgChannelCount.toNat
  | .referenceQuirk => s.idx.toNat ≤ s.inputs.cfgChannelCount.toNat

/-- The phase a cause leaves the step pointer at (R103): P2 or P5 for the fatal failures, P1 for
STOP and for a failed start. -/
def StopCause.phase : StopCause → Option Phase
  | .none => Option.none
  | .stopSignal => some .p1
  | .busInitFailure => some .p1
  | .gpioInitFailure => some .p1
  | .transactionFailure => some .p2
  | .sinkFailure => some .p5

/-- The registers agree with each other. -/
structure State.Inv (s : State) : Prop where
  /-- the buffer has its canonical form, indices 0 to 7 -/
  bufCanonical : s.buf.wf = true
  /-- the configuration is one the block may run with (R14) -/
  configLegal : s.configLegal = true
  /-- R75 -/
  indexBounded : s.indexBounded
  /-- R16: a cause is recorded exactly when the loop is Stopped -/
  causeIffStopped : s.stopCause = .none ↔ s.runState = .running
  /-- R20: within an iteration the working index is the sequencer's -/
  curIsIdx : s.runState = .running → s.phase ≠ .p1 → s.cur = s.idx
  /-- R83: within an iteration a value means a channel of the device -/
  valueMeansChannel :
    s.runState = .running → s.phase ≠ .p1 → s.phase ≠ .p2 → s.valOk = true → s.cur.toNat ≤ 7
  /-- R103: a Stopped block's phase names the step that stopped it -/
  phaseNamesStep : s.runState = .stopped → s.stopCause.phase = some s.phase

/-- The registers agree with the history (R25, R18, R77, R117). -/
structure State.HistoryInv (s : State) : Prop where
  /-- `idx` is what the last Advance wrote -/
  indexAgrees : s.idx = indexFrom s.events
  /-- each entry is what the last Store to it wrote -/
  bufferAgrees : ∀ i, s.buf.read i = storedFrom s.events i
  /-- a session stops at most once, with the recorded cause -/
  stopsAgree : stopCauses s.events =
    match s.runState with
    | .running => []
    | .stopped => [s.stopCause]
  /-- only the sixteen frames were ever sent (R45, R50 (a)) -/
  framesSent : ∀ tx r, (tx, r) ∈ exchanges s.events → Frame.isCommand tx
  /-- only channels of the device were ever recorded (R40) -/
  recordsOfDevice : ∀ ch v r, (ch, v, r) ∈ records s.events → ch.toNat ≤ 7

/-- The nine elements of R12 are the same. -/
structure SameBlock (s t : State) : Prop where
  idx : t.idx = s.idx
  runState : t.runState = s.runState
  stopCause : t.stopCause = s.stopCause
  modeQ : t.modeQ = s.modeQ
  buf : t.buf = s.buf
  phase : t.phase = s.phase
  cur : t.cur = s.cur
  val : t.val = s.val
  valOk : t.valOk = s.valOk

/-- Operations issued one after another (R52). -/
def runOps : List Instr → State → Host.Outcome State Fault Refusal
  | [], s => .next s
  | i :: is, s =>
    match exec i s with
    | .next t => runOps is t
    | .fault f => .fault f
    | .refused r => .refused r

/-- The host applies a reset at this step: by the input, or by the RESET operation (R112, R115). -/
def State.resetsNow (s : State) : Bool :=
  match s.inbox with
  | .reset :: _ => true
  | .command w :: _ =>
    match decode w with
    | .ok i => isReset i
    | .error _ => false
  | _ => false

/-- `c_k` of R76: the channel after `k` ADVANCEs from 0. -/
def channelAt (policy : WrapPolicy) (count k : Nat) : Nat :=
  match policy with
  | .strict => k % count
  | .referenceQuirk => k % (count + 1)

/-- The frame of R43 and R44 in numbers: `tx.b1 = (modeSelector + channel) * 16`. -/
def commandFrame (mode : Mode) (channel : BitVec 8) : Frame :=
  let selector := match mode with
    | .singleEnded => 8
    | .differential => 0
  ⟨0x01#8, BitVec.ofNat 8 ((selector + channel.toNat) * 16), 0x00#8⟩

/-- The value of R47 in numbers: `(rx.b1 mod 4) * 256 + rx.b2`. -/
def valueOf (rx : Frame) : BitVec 10 := BitVec.ofNat 10 (rx.b1.toNat % 4 * 256 + rx.b2.toNat)

/-- The index after ADVANCE in numbers (R73, R74). -/
def advancedIndex (policy : WrapPolicy) (count idx : Nat) : BitVec 4 :=
  match policy with
  | .strict => BitVec.ofNat 4 (if idx + 1 ≥ count then 0 else idx + 1)
  | .referenceQuirk => BitVec.ofNat 4 (if idx ≥ count then 0 else idx + 1)

/-- The block stands at a step of an iteration, the host quiet (R80). -/
structure State.AloneAt (s : State) (p : Phase) : Prop where
  configLegal : s.configLegal = true
  quiet : s.inbox = []
  running : s.runState = .running
  phase : s.phase = p

/-- `t` is what a reset of `s` establishes (R113 to R115); `cur`, `val`, `valOk` are not constrained,
and the host's inputs and the scripts of the device and the sink are not the block's. -/
structure FreshSession (s t : State) : Prop where
  idx : t.idx = 0#4
  phase : t.phase = .p1
  modeQ : t.modeQ = s.inputs.cfgMode
  bufListsNothing : t.buf = []
  bufEmpty : ∀ i, t.buf.read i = none
  busFailed : s.inputs.initBusOk = false →
    t.runState = .stopped ∧ t.stopCause = .busInitFailure ∧ t.events = [.reset, .stop .busInitFailure]
  gpioFailed : s.inputs.initBusOk = true → s.inputs.initGpioOk = false →
    t.runState = .stopped ∧ t.stopCause = .gpioInitFailure ∧ t.events = [.reset, .stop .gpioInitFailure]
  started : s.inputs.initBusOk = true → s.inputs.initGpioOk = true →
    t.runState = .running ∧ t.stopCause = .none ∧ t.events = [.reset]
  inputs : t.inputs = s.inputs
  busScript : t.busScript = s.busScript
  sinkScript : t.sinkScript = s.sinkScript

end Sys2Proof.Machine
end

