-- ==== Sys2Proof/Certificates/Slice0/Obligations.lean ====
section
/-! DEFINITION. The statements for the provers, each from numbered rules of spec/. -/

open Sys2Proof Sys2Proof.Machine

/-! ## Encoding -/

/-- Decoding the word of a well-formed instruction gives it back, every operand at every value
(R43, R46, R49). The operands' places in an OP word are the model's choice (log entry 2). -/
def Obligations.DecodeOfEncodeGivesBack : Prop :=
  ∀ i : Instr, i.wellFormed = true → decode (encode i) = .ok i

/-- A few words written out from the spec's encodings: 0x019000 is CMD.SE of channel 1, 0x017000 is
CMD.DIFF of channel 7 (R45), the reply 0x000234 is the frame [0x00, 0x02, 0x34] (R7, R46), and the
operation codes of R49. The places of the zero operands of codes 0 to 3 are the model's choice (log
entry 2). -/
def Obligations.SpecWordsDecodeAsWritten : Prop :=
  decode (.cmd 0x019000#24) = .ok (.cmdSe 1#8) ∧
  decode (.cmd 0x017000#24) = .ok (.cmdDiff 7#8) ∧
  decode (.rsp 0x000234#24) = .ok (.rsp ⟨0x00#8, 0x02#8, 0x34#8⟩) ∧
  decode (.op 0x0#32) = .ok (.encode .differential 0#8) ∧
  decode (.op 0x1#32) = .ok (.transact .differential 0#8) ∧
  decode (.op 0x2#32) = .ok (.decode ⟨0#8, 0#8, 0#8⟩) ∧
  decode (.op 0x3#32) = .ok (.read .differential 0#8) ∧
  decode (.op 0x4#32) = .ok .current ∧
  decode (.op 0x5#32) = .ok .advance ∧
  decode (.op 0x6#32) = .ok .iterate ∧
  decode (.op 0x7#32) = .ok .stop ∧
  decode (.op 0x8#32) = .ok .reset

/-- The words read as a command frame are exactly the sixteen of R45, one per mode and channel. -/
def Obligations.CommandWordsAreTheSixteenFrames : Prop :=
  ∀ f : BitVec 24, (∃ i, decode (.cmd f) = .ok i) ↔
    ∃ mode, ∃ channel : BitVec 8, channel.toNat ≤ 7 ∧ f = (commandFrame mode channel).toWord

/-- A command frame read back names the mode and the channel it was assembled from (R43, R44). -/
def Obligations.CommandWordNamesModeAndChannel : Prop :=
  ∀ channel : BitVec 8, channel.toNat ≤ 7 →
    decode (.cmd (commandFrame .singleEnded channel).toWord) = .ok (.cmdSe channel) ∧
    decode (.cmd (commandFrame .differential channel).toWord) = .ok (.cmdDiff channel)

/-- Every 24-bit pattern is a reply, and no bit of it is lost (R46). -/
def Obligations.EveryReplyWordIsWellFormed : Prop :=
  ∀ f : BitVec 24, ∃ rx : Frame, decode (.rsp f) = .ok (.rsp rx) ∧ encode (.rsp rx) = .rsp f ∧
    f.toNat = rx.b0.toNat * 65536 + rx.b1.toNat * 256 + rx.b2.toNat

/-- Operation codes 0x9 to 0xF are refused: no step (R49, R50 (d)). -/
def Obligations.ReservedCodesAreRefused : Prop :=
  ∀ (s : State) (w : BitVec 32) (rest : List HostMove),
    s.configLegal = true → s.inbox = .command (.op w) :: rest → 9 ≤ w.toNat % 16 →
    step s = .refused (.undecodable (.reservedOp (BitVec.ofNat 4 w.toNat)))

/-! ## BusTransaction -/

/-- ENCODE: the frame for a channel of the device, `InvalidChannel` for any other; no state, no event
(R56, with the mode selector numbers of R44; log entry 7). -/
def Obligations.EncodeAnswersFrameOrInvalidChannel : Prop :=
  ∀ (mode : Mode) (channel : BitVec 8) (s : State),
    exec (.encode mode channel) s = .next
      { s with
        result :=
          if channel.toNat ≤ 7 then .encoded (.frame (commandFrame mode channel))
          else .encoded .invalidChannel
        resultSeq := s.resultSeq + 1 }

/-- TRANSACT of a channel of the device: the frame of ENCODE sent once, the reply returned raw or the
failure propagated, no state of the block (R57, R59 to R63). -/
def Obligations.TransactPerformsOneExchange : Prop :=
  ∀ (mode : Mode) (channel : BitVec 8) (s : State), channel.toNat ≤ 7 →
    exec (.transact mode channel) s = .next
      { s with
        result := .transacted (match s.busAnswer with
          | .ok rx => .ok rx
          | .fail => .transactionFailure)
        resultSeq := s.resultSeq + 1
        events := s.events ++ [.exchange (commandFrame mode channel) s.busAnswer]
        busScript := s.busScript.tail
        draws := s.draws + 1 }

/-- TRANSACT of any other channel: no exchange, no event, nothing asked of the device, no state; the
check is against the device's range and not the configured count (R58). -/
def Obligations.InvalidChannelSuppressesTheExchange : Prop :=
  ∀ (mode : Mode) (channel : BitVec 8) (s : State),
    (8 ≤ channel.toNat →
      exec (.transact mode channel) s = .next
        { s with result := .transacted .invalidChannel, resultSeq := s.resultSeq + 1 }) ∧
    (channel.toNat ≤ 7 →
      ∃ t, exec (.transact mode channel) s = .next t ∧ t.result ≠ .transacted .invalidChannel ∧
        ∃ tx, exchanges t.events = exchanges s.events ++ [(tx, s.busAnswer)])

/-- A command frame at the port is one exchange of that frame (R45, R57; that executing a command
frame is this exchange is the model's reading, log entry 10); outside its encoding, nothing is
sent. -/
def Obligations.CommandFrameIsOneExchange : Prop :=
  ∀ (channel : BitVec 8) (s : State),
    (channel.toNat ≤ 7 →
      exec (.cmdSe channel) s = .next
        { s with
          result := .transacted (match s.busAnswer with
            | .ok rx => .ok rx
            | .fail => .transactionFailure)
          resultSeq := s.resultSeq + 1
          events := s.events ++ [.exchange (commandFrame .singleEnded channel) s.busAnswer]
          busScript := s.busScript.tail
          draws := s.draws + 1 } ∧
      exec (.cmdDiff channel) s = .next
        { s with
          result := .transacted (match s.busAnswer with
            | .ok rx => .ok rx
            | .fail => .transactionFailure)
          resultSeq := s.resultSeq + 1
          events := s.events ++ [.exchange (commandFrame .differential channel) s.busAnswer]
          busScript := s.busScript.tail
          draws := s.draws + 1 }) ∧
    (8 ≤ channel.toNat →
      exec (.cmdSe channel) s = .next
        { s with result := .transacted .invalidChannel, resultSeq := s.resultSeq + 1 } ∧
      exec (.cmdDiff channel) s = .next
        { s with result := .transacted .invalidChannel, resultSeq := s.resultSeq + 1 })

/-! ## ConversionDecoder -/

/-- DECODE answers `(rx.b1 & 3) * 256 + rx.b2`, total, and nothing else happens (R65). -/
def Obligations.DecodeExtractsTheTenBits : Prop :=
  ∀ (rx : Frame) (s : State),
    exec (.decode rx) s = .next
      { s with result := .decoded (valueOf rx), resultSeq := s.resultSeq + 1 }

/-- A reply frame at the port answers its value (R46, R65; that executing a reply frame is this is
the model's reading, log entry 10). -/
def Obligations.ReplyFrameAnswersItsValue : Prop :=
  ∀ (rx : Frame) (s : State),
    exec (.rsp rx) s = .next
      { s with result := .decoded (valueOf rx), resultSeq := s.resultSeq + 1 }

/-- The value is the low ten bits of the reply taken as one number (R46, R7). -/
def Obligations.ValueIsTheReplysLowTenBits : Prop :=
  ∀ (rx : Frame) (s : State),
    exec (.decode rx) s = .next
      { s with
        result := .decoded (BitVec.ofNat 10
          ((rx.b0.toNat * 65536 + rx.b1.toNat * 256 + rx.b2.toNat) % 1024))
        resultSeq := s.resultSeq + 1 }

/-- What DECODE ignores: byte 0 and the six high bits of byte 1 (R66). -/
def Obligations.DecodeIgnoresUnusedReplyBits : Prop :=
  ∀ (rx rx' : Frame) (s : State),
    rx.b1.extractLsb' 0 2 = rx'.b1.extractLsb' 0 2 → rx.b2 = rx'.b2 →
    exec (.decode rx) s = exec (.decode rx') s

/-- Every ten-bit value comes back from a frame that carries it, whatever the ignored bits (R71). -/
def Obligations.CarriedValueDecodesBack : Prop :=
  ∀ (v : BitVec 10) (x : Byte) (y : BitVec 6) (s : State),
    exec (.decode ⟨x, y ++ v.extractLsb' 8 2, v.extractLsb' 0 8⟩) s = .next
      { s with result := .decoded v, resultSeq := s.resultSeq + 1 }

/-- READ: TRANSACT, then DECODE of the reply; the sentinel and nothing else for a channel the device
has not (R69). -/
def Obligations.ReadAnswersValueSentinelOrFailure : Prop :=
  ∀ (mode : Mode) (channel : BitVec 8) (s : State),
    (channel.toNat ≤ 7 →
      exec (.read mode channel) s = .next
        { s with
          result := .read (match s.busAnswer with
            | .ok rx => .value (valueOf rx)
            | .fail => .transactionFailure)
          resultSeq := s.resultSeq + 1
          events := s.events ++ [.exchange (commandFrame mode channel) s.busAnswer]
          busScript := s.busScript.tail
          draws := s.draws + 1 }) ∧
    (8 ≤ channel.toNat →
      exec (.read mode channel) s = .next
        { s with result := .read .sentinel, resultSeq := s.resultSeq + 1 })

/-- The bits READ shows at the port: tag 0 with the value zero-extended, below 0x0400; tag 1 with
0xFFFF, which no value equals; tag 2 (R9, R49, R69). -/
def Obligations.ReadBitsTellSentinelFromValue : Prop :=
  ∀ s : State,
    (∀ v, s.result = .read (.value v) →
      ∃ b : BitVec 16, s.portResult = .read 0#2 b ∧ b.toNat = v.toNat ∧ b.toNat < 0x0400 ∧ b ≠ 0xFFFF#16) ∧
    (s.result = .read .sentinel → s.portResult = .read 1#2 0xFFFF#16) ∧
    (s.result = .read .transactionFailure → ∃ b, s.portResult = .read 2#2 b)

/-- The bits the other operations show at the port (R49). -/
def Obligations.PortShowsTheResultsBits : Prop :=
  ∀ s : State,
    (∀ tx, s.result = .encoded (.frame tx) → s.portResult = .encode 1#1 (tx.b0 ++ tx.b1 ++ tx.b2)) ∧
    (s.result = .encoded .invalidChannel → ∃ b, s.portResult = .encode 0#1 b) ∧
    (∀ rx, s.result = .transacted (.ok rx) →
      s.portResult = .transact 0#2 (rx.b0 ++ rx.b1 ++ rx.b2)) ∧
    (s.result = .transacted .invalidChannel → ∃ b, s.portResult = .transact 1#2 b) ∧
    (s.result = .transacted .transactionFailure → ∃ b, s.portResult = .transact 2#2 b) ∧
    (∀ v, s.result = .decoded v → s.portResult = .decode v) ∧
    (∀ i, s.result = .current i → s.portResult = .current i) ∧
    (s.result = .none → s.portResult = .none)

/-! ## ChannelSequencer -/

/-- CURRENT answers `idx` and writes nothing (R72). -/
def Obligations.CurrentAnswersTheIndex : Prop :=
  ∀ s : State,
    exec .current s = .next { s with result := .current s.idx, resultSeq := s.resultSeq + 1 }

/-- ADVANCE under Strict: the incremented value tested against the count, `idx` alone written (R73). -/
def Obligations.AdvanceStrictWrapsAtTheCount : Prop :=
  ∀ s : State, s.inputs.cfgWrapPolicy = .strict →
    ∃ new : BitVec 4,
      exec .advance s = .next
        { s with
          idx := new, events := s.events ++ [.advance s.idx new]
          result := .none, resultSeq := s.resultSeq + 1 } ∧
      new.toNat =
        if s.idx.toNat + 1 ≥ s.inputs.cfgChannelCount.toNat then 0 else s.idx.toNat + 1

/-- ADVANCE under ReferenceQuirk: the value before the increment tested, `idx` alone written (R74). -/
def Obligations.AdvanceQuirkTestsTheOldIndex : Prop :=
  ∀ s : State, s.inputs.cfgWrapPolicy = .referenceQuirk →
    ∃ new : BitVec 4,
      exec .advance s = .next
        { s with
          idx := new, events := s.events ++ [.advance s.idx new]
          result := .none, resultSeq := s.resultSeq + 1 } ∧
      new.toNat = if s.idx.toNat ≥ s.inputs.cfgChannelCount.toNat then 0 else s.idx.toNat + 1

/-- The sequence: after reset and `k` ADVANCEs CURRENT answers `k mod count` under Strict and
`k mod (count + 1)` under ReferenceQuirk (R76). -/
def Obligations.AdvancesCycleThroughTheChannels : Prop :=
  ∀ (s : State) (k : Nat), s.configLegal = true →
    ∃ t c, runOps (.reset :: (List.replicate k .advance ++ [.current])) s = .next t ∧
      t.result = .current c ∧
      c.toNat = match s.inputs.cfgWrapPolicy with
        | .strict => k % s.inputs.cfgChannelCount.toNat
        | .referenceQuirk => k % (s.inputs.cfgChannelCount.toNat + 1)

/-! ## SampleLoop: the six steps, the block running by itself -/

/-- Step 1: `cur <- idx` (R81), where the stop signal is not raised (R90). -/
def Obligations.StepOneReadsTheIndex : Prop :=
  ∀ s : State, s.AloneAt .p1 → s.inputs.stop = false →
    step s = .next { s with cur := s.idx, phase := .p2 }

/-- Step 2: READ of `cur` in the session's mode: a value kept, the sentinel absorbed with `val` left
open, a failure fatal with `phase` left at P2 (R82). -/
def Obligations.StepTwoReadsTheSample : Prop :=
  ∀ s : State, s.AloneAt .p2 →
    (∀ rx, s.cur.toNat ≤ 7 → s.busAnswer = .ok rx →
      step s = .next
        { s with
          val := valueOf rx, valOk := true, phase := .p3
          events := s.events ++ [.exchange (commandFrame s.modeQ (s.cur.setWidth 8)) (.ok rx)]
          busScript := s.busScript.tail, draws := s.draws + 1 }) ∧
    (s.cur.toNat ≤ 7 → s.busAnswer = .fail →
      step s = .next
        { s with
          runState := .stopped, stopCause := .transactionFailure
          events := s.events ++ [.exchange (commandFrame s.modeQ (s.cur.setWidth 8)) .fail,
            .stop .transactionFailure]
          busScript := s.busScript.tail, draws := s.draws + 1 }) ∧
    (8 ≤ s.cur.toNat →
      ∃ v d, step s = .next { s with val := v, valOk := false, phase := .p3, draws := d })

/-- Step 3: the store of a value of the device's channel at its index, every other entry kept;
otherwise nothing but the step pointer (R83, R18). -/
def Obligations.StepThreeStoresTheValue : Prop :=
  ∀ s : State, s.AloneAt .p3 →
    (s.valOk = true → s.cur.toNat ≤ 7 →
      ∃ m : Memory, step s = .next
          { s with buf := m, phase := .p4, events := s.events ++ [.store s.cur s.val] } ∧
        ∀ k, m.read k = if k = s.cur.toNat then some s.val else s.buf.read k) ∧
    (s.valOk = false → step s = .next { s with phase := .p4 }) ∧
    (8 ≤ s.cur.toNat → step s = .next { s with phase := .p4 })

/-- Step 4: the settling delay is an event and nothing else (R84, R109). -/
def Obligations.StepFourDelays : Prop :=
  ∀ s : State, s.AloneAt .p4 →
    step s = .next { s with phase := .p5, events := s.events ++ [.delay] }

/-- Step 5: the record handed to the sink once when there is a value; its failure fatal with `phase`
left at P5; nothing otherwise (R85). -/
def Obligations.StepFiveHandsOverTheRecord : Prop :=
  ∀ s : State, s.AloneAt .p5 →
    (s.valOk = true → s.sinkAnswer = .ok →
      step s = .next
        { s with
          phase := .p6, events := s.events ++ [.record s.cur s.val .ok]
          sinkScript := s.sinkScript.tail, draws := s.draws + 1 }) ∧
    (s.valOk = true → s.sinkAnswer = .fail →
      step s = .next
        { s with
          runState := .stopped, stopCause := .sinkFailure
          events := s.events ++ [.record s.cur s.val .fail, .stop .sinkFailure]
          sinkScript := s.sinkScript.tail, draws := s.draws + 1 }) ∧
    (s.valOk = false → step s = .next { s with phase := .p6 })

/-- Step 6: ADVANCE and the iteration boundary, where `cur`, `val` and `val_ok` are open (R86, R20). -/
def Obligations.StepSixAdvances : Prop :=
  ∀ s : State, s.AloneAt .p6 →
    ∃ new c v ok d,
      step s = .next
        { s with
          idx := new, phase := .p1, cur := c, val := v, valOk := ok, draws := d
          events := s.events ++ [.advance s.idx new] } ∧
      new = advancedIndex s.inputs.cfgWrapPolicy s.inputs.cfgChannelCount.toNat s.idx.toNat

/-! ## SampleLoop: ITERATE and STOP -/

/-- A normal iteration: the five events in order, the value stored at the index and every other entry
kept, the index advanced, the boundary reached, everything else of the block and the host as before
(R88). The sink is asked after one draw, the device's. -/
def Obligations.IterateSamplesOneChannel : Prop :=
  ∀ (s : State) (rx : Frame),
    s.runState = .running → s.inputs.stop = false → s.idx.toNat ≤ 7 → s.busAnswer = .ok rx →
    State.sinkAnswer { s with draws := s.draws + 1 } = .ok →
    ∃ t new, exec .iterate s = .next t ∧
      new = advancedIndex s.inputs.cfgWrapPolicy s.inputs.cfgChannelCount.toNat s.idx.toNat ∧
      t.events = s.events ++
        [.exchange (commandFrame s.modeQ (s.idx.setWidth 8)) (.ok rx), .store s.idx (valueOf rx), .delay,
          .record s.idx (valueOf rx) .ok, .advance s.idx new] ∧
      t.idx = new ∧
      (∀ k, t.buf.read k = if k = s.idx.toNat then some (valueOf rx) else s.buf.read k) ∧
      t.phase = .p1 ∧ t.runState = .running ∧ t.stopCause = s.stopCause ∧ t.modeQ = s.modeQ ∧
      t.inputs = s.inputs ∧ t.inbox = s.inbox ∧ t.result = .none ∧
      t.busScript = s.busScript.tail ∧ t.sinkScript = s.sinkScript.tail

/-- A failed exchange: Stopped with the cause and `phase` P2, nothing stored, recorded or advanced
(R98, R103). -/
def Obligations.IterateEndsAtBusFailure : Prop :=
  ∀ s : State,
    s.runState = .running → s.inputs.stop = false → s.idx.toNat ≤ 7 → s.busAnswer = .fail →
    exec .iterate s = .next
      { s with
        cur := s.idx, phase := .p2, runState := .stopped, stopCause := .transactionFailure
        events := s.events ++ [.exchange (commandFrame s.modeQ (s.idx.setWidth 8)) .fail,
          .stop .transactionFailure]
        busScript := s.busScript.tail, draws := s.draws + 1
        result := .none, resultSeq := s.resultSeq + 1 }

/-- A failed append: Stopped with the cause and `phase` P5, the value stored, the index not advanced,
no retry (R99). -/
def Obligations.IterateEndsAtSinkFailure : Prop :=
  ∀ (s : State) (rx : Frame),
    s.runState = .running → s.inputs.stop = false → s.idx.toNat ≤ 7 → s.busAnswer = .ok rx →
    State.sinkAnswer { s with draws := s.draws + 1 } = .fail →
    ∃ m : Memory,
      exec .iterate s = .next
        { s with
          cur := s.idx, val := valueOf rx, valOk := true, buf := m
          phase := .p5, runState := .stopped, stopCause := .sinkFailure
          events := s.events ++
            [.exchange (commandFrame s.modeQ (s.idx.setWidth 8)) (.ok rx), .store s.idx (valueOf rx),
              .delay, .record s.idx (valueOf rx) .fail, .stop .sinkFailure]
          busScript := s.busScript.tail, sinkScript := s.sinkScript.tail, draws := s.draws + 2
          result := .none, resultSeq := s.resultSeq + 1 } ∧
      ∀ k, m.read k = if k = s.idx.toNat then some (valueOf rx) else s.buf.read k

/-- The invalid-channel iteration: no exchange, store or record; delay and advance; Running (R87). -/
def Obligations.IterateAbsorbsInvalidChannel : Prop :=
  ∀ s : State,
    s.runState = .running → s.inputs.stop = false → 8 ≤ s.idx.toNat →
    ∃ t new, exec .iterate s = .next t ∧
      new = advancedIndex s.inputs.cfgWrapPolicy s.inputs.cfgChannelCount.toNat s.idx.toNat ∧
      t.events = s.events ++ [.delay, .advance s.idx new] ∧ t.idx = new ∧ t.buf = s.buf ∧
      t.phase = .p1 ∧ t.runState = .running ∧ t.stopCause = s.stopCause ∧ t.modeQ = s.modeQ ∧
      t.inputs = s.inputs ∧ t.inbox = s.inbox ∧ t.result = .none ∧
      t.busScript = s.busScript ∧ t.sinkScript = s.sinkScript

/-- The stop signal beats the iteration; a Stopped block does nothing (R90, R93, R102 (d)). -/
def Obligations.IterateHonoursStopAndStopped : Prop :=
  ∀ s : State,
    (s.runState = .running → s.inputs.stop = true →
      exec .iterate s = .next
        { s with
          runState := .stopped, stopCause := .stopSignal, events := s.events ++ [.stop .stopSignal]
          result := .none, resultSeq := s.resultSeq + 1 }) ∧
    (s.runState = .stopped →
      exec .iterate s = .next { s with result := .none, resultSeq := s.resultSeq + 1 })

/-- ITERATE is the iteration the block runs by itself: at most six of its steps reach the same state,
at the boundary or Stopped (R54, R80, R88). -/
def Obligations.IterateIsTheBlocksOwnSteps : Prop :=
  ∀ s : State, s.AloneAt .p1 →
    ∃ (k : Nat) (t : State), 1 ≤ k ∧ k ≤ 6 ∧ core.run k s = .next t ∧
      (t.phase = .p1 ∨ t.runState = .stopped) ∧
      exec .iterate s = .next { t with result := .none, resultSeq := s.resultSeq + 1 }

/-- `K` iterations from reset with one fixed reply and a sink that accepts: a record of the decoded
value for each visited channel of the device, in the sequencer's order, as many exchanges, and the
end state (R91). The history counted is the one that RESET begins (R113; DEDUCED, log entry 9). -/
def Obligations.IterationsRecordTheChannelsInOrder : Prop :=
  ∀ (s : State) (rx : Frame) (n : Nat) (bus : List BusResult) (sink : List SinkResult),
    s.configLegal = true → s.inputs.initBusOk = true → s.inputs.initGpioOk = true →
    s.inputs.stop = false →
    s.busScript = List.replicate n (.ok rx) ++ bus → s.sinkScript = List.replicate n .ok ++ sink →
    let c := channelAt s.inputs.cfgWrapPolicy s.inputs.cfgChannelCount.toNat
    let visited := (List.range n).filter (fun k => c k ≤ 7)
    ∃ t, runOps (.reset :: List.replicate n .iterate) s = .next t ∧
      persisted t.events = visited.map (fun k => (BitVec.ofNat 4 (c k), valueOf rx)) ∧
      (exchanges t.events).length = visited.length ∧
      t.idx.toNat = c n ∧
      (∀ k, k ∈ visited → t.buf.read (c k) = some (valueOf rx)) ∧
      (∀ i, (∀ k, k ∈ visited → c k ≠ i) → t.buf.read i = none) ∧
      t.runState = .running ∧ t.stopCause = .none

/-- STOP: the entry into Stopped and nothing else; nothing at all when Stopped (R89). -/
def Obligations.StopEntersStopped : Prop :=
  ∀ s : State,
    (s.runState = .running →
      exec .stop s = .next
        { s with
          runState := .stopped, stopCause := .stopSignal, events := s.events ++ [.stop .stopSignal]
          result := .none, resultSeq := s.resultSeq + 1 }) ∧
    (s.runState = .stopped →
      exec .stop s = .next { s with result := .none, resultSeq := s.resultSeq + 1 })

/-! ## RESET -/

/-- RESET: a fresh session from any state, Running or Stopped by the two initialisation outcomes
(R113 to R115). -/
def Obligations.ResetStartsAFreshSession : Prop :=
  ∀ s : State, ∃ t, exec .reset s = .next t ∧ FreshSession s t ∧ t.inbox = s.inbox

/-- Reset beats everything: the input, or the RESET operation at the port, next in line, is honoured at
any phase and in any run state, the iteration in progress abandoned (R102 (a), R112). That the host's
moves are served in order is the model's choice (DESIGN CHOICE, log entry 16). -/
def Obligations.ResetIsHonouredAtAnyMoment : Prop :=
  ∀ (s : State) (rest : List HostMove), s.configLegal = true →
    (s.inbox = .reset :: rest → ∃ t, step s = .next t ∧ FreshSession s t ∧ t.inbox = rest) ∧
    (∀ w, s.inbox = .command w :: rest → decode w = .ok .reset →
      ∃ t, step s = .next t ∧ FreshSession s t ∧ t.inbox = rest)

/-- RESET twice in a row is RESET once, but for what is open or the model's own (R115). -/
def Obligations.ResetTwiceIsResetOnce : Prop :=
  ∀ s : State, ∃ t u, runOps [.reset] s = .next t ∧ runOps [.reset, .reset] s = .next u ∧
    u.idx = t.idx ∧ u.runState = t.runState ∧ u.stopCause = t.stopCause ∧ u.modeQ = t.modeQ ∧
    u.buf = t.buf ∧ u.phase = t.phase ∧ u.events = t.events

/-- The code numbers of the status registers and inputs: `run_state` and `mode` (R12, R14), `phase`
(R19), `cfg_wrap_policy` (R14), `stop_cause` (R94); no two causes share a code. -/
def Obligations.StatusCodesAreTheSpecs : Prop :=
  RunState.stopped.code = 0#1 ∧ RunState.running.code = 1#1 ∧
  Mode.differential.bit = 0#1 ∧ Mode.singleEnded.bit = 1#1 ∧
  WrapPolicy.strict.code = 0#1 ∧ WrapPolicy.referenceQuirk.code = 1#1 ∧
  Phase.p1.code = 1#3 ∧ Phase.p2.code = 2#3 ∧ Phase.p3.code = 3#3 ∧ Phase.p4.code = 4#3 ∧
  Phase.p5.code = 5#3 ∧ Phase.p6.code = 6#3 ∧
  StopCause.none.code = 0#3 ∧ StopCause.stopSignal.code = 1#3 ∧
  StopCause.busInitFailure.code = 2#3 ∧ StopCause.gpioInitFailure.code = 3#3 ∧
  StopCause.transactionFailure.code = 4#3 ∧ StopCause.sinkFailure.code = 5#3 ∧
  ∀ c d : StopCause, c.code = d.code → c = d

/-- The state after reset: the values the spec gives (R27, R113) for the configuration the model
names (DESIGN CHOICE, log entry 4): count 6, Strict, single-ended, both initialisations succeeded,
stop low. -/
def Obligations.ResetStateHasTheSpecsValues : Prop :=
  State.reset.idx = 0#4 ∧ State.reset.phase = .p1 ∧ State.reset.modeQ = State.reset.inputs.cfgMode ∧
  (∀ i, State.reset.buf.read i = none) ∧ State.reset.runState = .running ∧
  State.reset.stopCause = .none ∧ State.reset.events = [.reset] ∧ State.reset.inputs.stop = false ∧
  State.reset.inputs.initBusOk = true ∧ State.reset.inputs.initGpioOk = true ∧
  State.reset.configLegal = true

/-! ## The machine's step and its host -/

/-- A command at the port whose word decodes to an instruction is run by the step, the word taken,
when the block is at the boundary or Stopped, and RESET always (R101, R102; when commands are taken
is the model's reading, log entry 6). -/
def Obligations.StepRunsTheDecodedInstruction : Prop :=
  ∀ (s : State) (w : PortWord) (i : Instr) (rest : List HostMove),
    s.configLegal = true → s.inbox = .command w :: rest → decode w = .ok i →
    (i = .reset ∨ s.runState = .stopped ∨ s.phase = .p1) →
    step s = exec i { s with inbox := rest }

/-- A table row's word placed as the next command is what the next step runs (log entry 6). -/
def Obligations.PlacedWordIsWhatRuns : Prop :=
  ∀ (s : State) (nbits w : Nat) (i : Instr),
    s.configLegal = true → decodeTableWord nbits w = some i →
    (s.runState = .stopped ∨ s.phase = .p1) →
    step (s.withFetchWord nbits w) = exec i s

/-- In the middle of an iteration any other command waits, with every move behind it, and the block
goes on as it would alone (R101, R36; DEDUCED, log entry 6; DESIGN CHOICE, log entry 16). -/
def Obligations.CommandWaitsForTheBoundary : Prop :=
  ∀ (s : State) (w : PortWord) (i : Instr) (rest : List HostMove),
    s.configLegal = true → s.inbox = .command w :: rest → decode w = .ok i → i ≠ .reset →
    s.runState = .running → s.phase ≠ .p1 →
    ∃ t, step s = .next t ∧ t.inbox = s.inbox ∧
      step { s with inbox := [] } = .next { t with inbox := [] }

/-- No run from a channel count of 0 or above 8 (R14, U6). -/
def Obligations.IllegalCountHasNoRun : Prop :=
  ∀ s : State, (s.inputs.cfgChannelCount.toNat = 0 ∨ 9 ≤ s.inputs.cfgChannelCount.toNat) →
    step s = .refused (.illegalChannelCount s.inputs.cfgChannelCount)

/-- The host's moves on the inputs change that input and nothing else; an idle host lets the block run
as it would alone (R14, R118). -/
def Obligations.HostMovesChangeOnlyTheirInput : Prop :=
  ∀ (s : State) (rest : List HostMove), s.configLegal = true →
    (∀ b, step { s with inbox := .setStop b :: rest } =
      .next { s with inbox := rest, inputs := { s.inputs with stop := b } }) ∧
    (∀ m, step { s with inbox := .setMode m :: rest } =
      .next { s with inbox := rest, inputs := { s.inputs with cfgMode := m } }) ∧
    (∀ b g, step { s with inbox := .setInit b g :: rest } =
      .next { s with inbox := rest, inputs := { s.inputs with initBusOk := b, initGpioOk := g } }) ∧
    (∀ t, step { s with inbox := [] } = .next t →
      step { s with inbox := .idle :: rest } = .next { t with inbox := rest })

/-- The host's read of the buffer: the entry's value where one was stored, a fault of the reader where
none was (R18, R41, U4). That the read of an index of 8 or more is a fault too is the model's choice
(DESIGN CHOICE, log entry 12): R41 gives no such read. -/
def Obligations.HostReadsStoredEntriesOnly : Prop :=
  ∀ (s : State) (i : Nat) (rest : List HostMove), s.configLegal = true → s.inbox = .readEntry i :: rest →
    (∀ v, i ≤ 7 → s.buf.read i = some v →
      step s = .next { s with inbox := rest, result := .entry v, resultSeq := s.resultSeq + 1 }) ∧
    (i ≤ 7 → s.buf.read i = none → step s = .fault (.emptyEntryRead i)) ∧
    (8 ≤ i → step s = .fault (.noSuchEntry i))

/-! ## Whole-machine rules -/

/-- Stopped is final: without a reset no step leaves it, changes the cause, the buffer, the mode or
the phase, stores, records or stops again; the index moves only by a direct ADVANCE (R93, R105). -/
def Obligations.StoppedIsFinalUntilReset : Prop :=
  ∀ s t : State, s.runState = .stopped → s.resetsNow = false → step s = .next t →
    t.runState = .stopped ∧ t.stopCause = s.stopCause ∧ t.modeQ = s.modeQ ∧ t.buf = s.buf ∧
    t.phase = s.phase ∧ records t.events = records s.events ∧
    stopCauses t.events = stopCauses s.events ∧
    (t.idx = s.idx ∨ ∃ w rest, s.inbox = .command w :: rest ∧ decode w = .ok .advance)

/-- The session's mode is fixed: no step but a reset changes it (R17). -/
def Obligations.SessionModeIsFixed : Prop :=
  ∀ s t : State, s.resetsNow = false → step s = .next t → t.modeQ = s.modeQ

/-- The loop's exchanges carry the session's mode: in ITERATE and in the block's own steps the mode
bit sent is `mode_q` (R92, R82). -/
def Obligations.LoopExchangesCarryTheSessionMode : Prop :=
  ∀ s t : State, (exec .iterate s = .next t ∨ (s.inbox = [] ∧ step s = .next t)) →
    ∃ es, t.events = s.events ++ es ∧
      ∀ tx r, (tx, r) ∈ exchanges es → tx.b1.getLsbD 7 = decide (s.modeQ = .singleEnded)

/-- The stop signal never tears an iteration: away from the boundary a step does the same whatever its
level (R90). -/
def Obligations.StopSignalDoesNotTearAnIteration : Prop :=
  ∀ (s t : State) (b : Bool), s.inbox = [] → s.phase ≠ .p1 → step s = .next t →
    step { s with inputs := { s.inputs with stop := b } } =
      .next { t with inputs := { t.inputs with stop := b } }

/-- `cfg_mode` is read at reset only: every other operation does the same whatever its level (R14,
R17). -/
def Obligations.ConfiguredModeIsReadAtResetOnly : Prop :=
  ∀ (i : Instr) (s t : State) (m : Mode), i ≠ .reset → exec i s = .next t →
    exec i { s with inputs := { s.inputs with cfgMode := m } } =
      .next { t with inputs := { t.inputs with cfgMode := m } }

/-- The state each operation may write: the buffer, the mode, the phase and the working registers only
ITERATE and RESET, the index also ADVANCE, the run state and the cause also STOP, the host's inputs and
moves none (R53, R24). -/
def Obligations.OperationsWriteOnlyTheirState : Prop :=
  ∀ (i : Instr) (s t : State), exec i s = .next t →
    t.inputs = s.inputs ∧ t.inbox = s.inbox ∧
    (i ≠ .reset → t.modeQ = s.modeQ) ∧
    (i ≠ .iterate → i ≠ .reset →
      t.buf = s.buf ∧ (∀ k, t.buf.read k = s.buf.read k) ∧ t.phase = s.phase ∧ t.cur = s.cur ∧
      t.val = s.val ∧ t.valOk = s.valOk ∧ t.sinkScript = s.sinkScript) ∧
    (i ≠ .advance → i ≠ .iterate → i ≠ .reset → t.idx = s.idx) ∧
    (i ≠ .stop → i ≠ .iterate → i ≠ .reset → t.runState = s.runState ∧ t.stopCause = s.stopCause)

/-- At most one exchange and at most one append in an operation, never a retry, and history is only
added to (R33, R60, R25). -/
def Obligations.OneExchangeAndOneRecordAtMost : Prop :=
  ∀ (i : Instr) (s t : State), i ≠ .reset → exec i s = .next t →
    ∃ es, t.events = s.events ++ es ∧ (exchanges es).length ≤ 1 ∧ (records es).length ≤ 1 ∧
      (i ≠ .iterate → records es = [])

/-- The reply's ignored bits reach nothing of the block and no record: two replies that agree on the
ten bits give the same registers, buffer and records (R66, R88). -/
def Obligations.UnusedReplyBitsReachNothing : Prop :=
  ∀ (s t t' : State) (rx rx' : Frame) (rest : List BusResult),
    valueOf rx = valueOf rx' →
    exec .iterate { s with busScript := .ok rx :: rest } = .next t →
    exec .iterate { s with busScript := .ok rx' :: rest } = .next t' →
    SameBlock t t' ∧ records t'.events = records t.events

/-! ## Invariants -/

/-- The state after reset meets the invariant of the registers (for the model's configuration, log
entry 4). -/
def Obligations.ResetStateMeetsTheRegisterInvariant : Prop := State.reset.Inv

/-- Every step keeps the invariant of the registers (R13, R16, R18, R20, R75, R83, R103). -/
def Obligations.StepKeepsTheRegisterInvariant : Prop :=
  ∀ s t : State, s.Inv → step s = .next t → t.Inv

/-- The state after reset agrees with its history (R27). -/
def Obligations.ResetStateAgreesWithItsHistory : Prop := State.reset.HistoryInv

/-- Every step keeps the registers in agreement with the history: the index the last Advance wrote,
each entry the most recently stored, one Stop a session with the recorded cause, only the sixteen
frames sent, only channels of the device recorded (R18, R25, R45, R77, R117). -/
def Obligations.StepKeepsRegistersAndHistoryAgreed : Prop :=
  ∀ s t : State, s.Inv → s.HistoryInv → step s = .next t → t.HistoryInv

/-! ## Records -/

/-- A record's text: `A`, the channel, a colon, one space, the value, both in decimal with no sign and
no leading zero, nothing after; 5 to 8 characters (R48). -/
def Obligations.RecordTextIsDecimal : Prop :=
  ∀ (ch : BitVec 4) (v : BitVec 10), ch.toNat ≤ 7 →
    ∃ d : List Char,
      recordText ch v = ['A', Char.ofNat (48 + ch.toNat), ':', ' '] ++ d ∧
      (∀ c ∈ d, 48 ≤ c.toNat ∧ c.toNat ≤ 57) ∧
      d.foldl (fun n c => 10 * n + (c.toNat - 48)) 0 = v.toNat ∧
      (d.head? = some '0' → d = ['0']) ∧
      5 ≤ (recordText ch v).length ∧ (recordText ch v).length ≤ 8
end

