-- ==== Sys2Proof/Laws/History.lean ====
section
/-! SUPPORT. What a history says when events are added to its end. -/

namespace Sys2Proof.Machine

variable (a b : List Event)

@[simp] theorem exchanges_nil : exchanges [] = [] := rfl
@[simp] theorem records_nil : records [] = [] := rfl
@[simp] theorem persisted_nil : persisted [] = [] := rfl
@[simp] theorem stopCauses_nil : stopCauses [] = [] := rfl

@[simp] theorem exchanges_append : exchanges (a ++ b) = exchanges a ++ exchanges b := by
  simp [exchanges]
@[simp] theorem records_append : records (a ++ b) = records a ++ records b := by simp [records]
@[simp] theorem persisted_append : persisted (a ++ b) = persisted a ++ persisted b := by
  simp [persisted]
@[simp] theorem stopCauses_append : stopCauses (a ++ b) = stopCauses a ++ stopCauses b := by
  simp [stopCauses]

@[simp] theorem exchanges_cons_exchange (tx : Frame) (r : BusResult) :
    exchanges (.exchange tx r :: a) = (tx, r) :: exchanges a := rfl
@[simp] theorem exchanges_cons_store (i : BitVec 4) (v : BitVec 10) :
    exchanges (.store i v :: a) = exchanges a := rfl
@[simp] theorem exchanges_cons_delay :
    exchanges (.delay :: a) = exchanges a := rfl
@[simp] theorem exchanges_cons_advance (o n : BitVec 4) :
    exchanges (.advance o n :: a) = exchanges a := rfl
@[simp] theorem exchanges_cons_stop (c : StopCause) :
    exchanges (.stop c :: a) = exchanges a := rfl
@[simp] theorem exchanges_cons_reset :
    exchanges (.reset :: a) = exchanges a := rfl
@[simp] theorem records_cons_exchange (tx : Frame) (r : BusResult) :
    records (.exchange tx r :: a) = records a := rfl
@[simp] theorem records_cons_store (i : BitVec 4) (v : BitVec 10) :
    records (.store i v :: a) = records a := rfl
@[simp] theorem records_cons_delay :
    records (.delay :: a) = records a := rfl
@[simp] theorem records_cons_advance (o n : BitVec 4) :
    records (.advance o n :: a) = records a := rfl
@[simp] theorem records_cons_stop (c : StopCause) :
    records (.stop c :: a) = records a := rfl
@[simp] theorem records_cons_reset :
    records (.reset :: a) = records a := rfl
@[simp] theorem persisted_cons_exchange (tx : Frame) (r : BusResult) :
    persisted (.exchange tx r :: a) = persisted a := rfl
@[simp] theorem persisted_cons_store (i : BitVec 4) (v : BitVec 10) :
    persisted (.store i v :: a) = persisted a := rfl
@[simp] theorem persisted_cons_delay :
    persisted (.delay :: a) = persisted a := rfl
@[simp] theorem persisted_cons_record_ok (c : BitVec 4) (v : BitVec 10) :
    persisted (.record c v .ok :: a) = (c, v) :: persisted a := rfl
@[simp] theorem persisted_cons_record_fail (c : BitVec 4) (v : BitVec 10) :
    persisted (.record c v .fail :: a) = persisted a := rfl
@[simp] theorem persisted_cons_advance (o n : BitVec 4) :
    persisted (.advance o n :: a) = persisted a := rfl
@[simp] theorem persisted_cons_stop (c : StopCause) :
    persisted (.stop c :: a) = persisted a := rfl
@[simp] theorem persisted_cons_reset :
    persisted (.reset :: a) = persisted a := rfl
@[simp] theorem stopCauses_cons_exchange (tx : Frame) (r : BusResult) :
    stopCauses (.exchange tx r :: a) = stopCauses a := rfl
@[simp] theorem stopCauses_cons_store (i : BitVec 4) (v : BitVec 10) :
    stopCauses (.store i v :: a) = stopCauses a := rfl
@[simp] theorem stopCauses_cons_delay :
    stopCauses (.delay :: a) = stopCauses a := rfl
@[simp] theorem stopCauses_cons_advance (o n : BitVec 4) :
    stopCauses (.advance o n :: a) = stopCauses a := rfl
@[simp] theorem stopCauses_cons_stop (c : StopCause) :
    stopCauses (.stop c :: a) = c :: stopCauses a := rfl
@[simp] theorem stopCauses_cons_reset :
    stopCauses (.reset :: a) = stopCauses a := rfl
@[simp] theorem exchanges_cons_record (c : BitVec 4) (v : BitVec 10) (r : SinkResult) :
    exchanges (.record c v r :: a) = exchanges a := rfl
@[simp] theorem records_cons_record (c : BitVec 4) (v : BitVec 10) (r : SinkResult) :
    records (.record c v r :: a) = (c, v, r) :: records a := rfl
@[simp] theorem stopCauses_cons_record (c : BitVec 4) (v : BitVec 10) (r : SinkResult) :
    stopCauses (.record c v r :: a) = stopCauses a := rfl

/-- The index after one more event. -/
theorem indexFrom_snoc (e : Event) : indexFrom (a ++ [e]) =
    match e with
    | .advance _ new => new
    | .reset => 0#4
    | _ => indexFrom a := by
  unfold indexFrom
  rw [List.foldl_append]
  cases e <;> rfl

/-- An entry after one more event. -/
theorem storedFrom_snoc (i : Nat) (e : Event) : storedFrom (a ++ [e]) i =
    match e with
    | .store j w => if j.toNat = i then some w else storedFrom a i
    | .reset => none
    | _ => storedFrom a i := by
  unfold storedFrom
  rw [List.foldl_append]
  cases e <;> rfl

end Sys2Proof.Machine
end

