-- ==== Sys2Proof/Laws/Memory.lean ====
section
/-! SUPPORT. The laws of the sample buffer: a read after a write, and the canonical form kept. -/

namespace Sys2Proof.Machine

@[simp] theorem Memory.read_nil (i : Nat) : Memory.read [] i = none := rfl

theorem Memory.read_write_same (m : Memory) (i : Nat) (v : BitVec 10) :
    (m.write i v).read i = some v := by
  induction m with
  | nil => simp [Memory.write, Memory.read]
  | cons e m ih =>
    obtain ⟨j, w⟩ := e
    by_cases hlt : j < i
    · simp [Memory.write, Memory.read, hlt, Nat.ne_of_lt hlt, ih]
    · by_cases heq : j = i <;> simp [Memory.write, Memory.read, hlt, heq]

theorem Memory.read_write_other (m : Memory) (i k : Nat) (v : BitVec 10) (h : k ≠ i) :
    (m.write i v).read k = m.read k := by
  induction m with
  | nil => simp [Memory.write, Memory.read, Ne.symm h]
  | cons e m ih =>
    obtain ⟨j, w⟩ := e
    by_cases hlt : j < i
    · simp [Memory.write, Memory.read, hlt, ih]
    · by_cases heq : j = i
      · subst heq
        simp [Memory.write, Memory.read, Ne.symm h]
      · simp [Memory.write, Memory.read, hlt, heq, Ne.symm h]

/-- The two laws in one. -/
theorem Memory.read_write (m : Memory) (i k : Nat) (v : BitVec 10) :
    (m.write i v).read k = if k = i then some v else m.read k := by
  by_cases h : k = i
  · simp [h, Memory.read_write_same]
  · simp [h, Memory.read_write_other m i k v h]

theorem Memory.write_risingFrom (m : Memory) (lo i : Nat) (v : BitVec 10) (hlo : lo ≤ i)
    (hi : i < Config.bufEntries) (h : m.risingFrom lo = true) : (m.write i v).risingFrom lo = true := by
  induction m generalizing lo with
  | nil => simp [Memory.write, Memory.risingFrom, hlo, hi]
  | cons e m ih =>
    obtain ⟨j, w⟩ := e
    simp only [Memory.risingFrom, Bool.and_eq_true, decide_eq_true_eq] at h
    obtain ⟨⟨hj, hj'⟩, hm⟩ := h
    by_cases hlt : j < i
    · simp [Memory.write, Memory.risingFrom, hlt, hj, hj', ih (j + 1) hlt hm]
    · by_cases heq : j = i
      · subst heq
        simp [Memory.write, Memory.risingFrom, hlo, hi, hm]
      · have hij : i + 1 ≤ j := by omega
        simp [Memory.write, Memory.risingFrom, hlt, heq, hlo, hi, hj', hij, hm]

/-- Every write the block makes keeps the canonical form. -/
theorem Memory.write_wf (m : Memory) (i : Nat) (v : BitVec 10) (hi : i < Config.bufEntries)
    (h : m.wf = true) : (m.write i v).wf = true :=
  Memory.write_risingFrom m 0 i v (Nat.zero_le i) hi h

/-- Reset's buffer has it. -/
theorem Memory.nil_wf : Memory.wf [] = true := rfl

theorem State.reset_buf_wf : State.reset.buf.wf = true := rfl

end Sys2Proof.Machine
end

