-- ==== Sys2Proof/Laws/State.lean ====
section
/-! SUPPORT. One lemma per field per update of State, each true by rfl, so that no proof unfolds a
record update. -/

namespace Sys2Proof.Machine

variable (s : State)

/-! emit -/

@[simp] theorem emit_idx (e : Event) : (s.emit e).idx = s.idx := rfl
@[simp] theorem emit_runState (e : Event) : (s.emit e).runState = s.runState := rfl
@[simp] theorem emit_stopCause (e : Event) : (s.emit e).stopCause = s.stopCause := rfl
@[simp] theorem emit_modeQ (e : Event) : (s.emit e).modeQ = s.modeQ := rfl
@[simp] theorem emit_buf (e : Event) : (s.emit e).buf = s.buf := rfl
@[simp] theorem emit_phase (e : Event) : (s.emit e).phase = s.phase := rfl
@[simp] theorem emit_cur (e : Event) : (s.emit e).cur = s.cur := rfl
@[simp] theorem emit_val (e : Event) : (s.emit e).val = s.val := rfl
@[simp] theorem emit_valOk (e : Event) : (s.emit e).valOk = s.valOk := rfl
@[simp] theorem emit_events (e : Event) : (s.emit e).events = s.events ++ [e] := rfl
@[simp] theorem emit_inputs (e : Event) : (s.emit e).inputs = s.inputs := rfl
@[simp] theorem emit_result (e : Event) : (s.emit e).result = s.result := rfl
@[simp] theorem emit_resultSeq (e : Event) : (s.emit e).resultSeq = s.resultSeq := rfl
@[simp] theorem emit_busScript (e : Event) : (s.emit e).busScript = s.busScript := rfl
@[simp] theorem emit_sinkScript (e : Event) : (s.emit e).sinkScript = s.sinkScript := rfl
@[simp] theorem emit_draws (e : Event) : (s.emit e).draws = s.draws := rfl
@[simp] theorem emit_inbox (e : Event) : (s.emit e).inbox = s.inbox := rfl

/-! deliver -/

@[simp] theorem deliver_idx (r : OpResult) : (s.deliver r).idx = s.idx := rfl
@[simp] theorem deliver_runState (r : OpResult) : (s.deliver r).runState = s.runState := rfl
@[simp] theorem deliver_stopCause (r : OpResult) : (s.deliver r).stopCause = s.stopCause := rfl
@[simp] theorem deliver_modeQ (r : OpResult) : (s.deliver r).modeQ = s.modeQ := rfl
@[simp] theorem deliver_buf (r : OpResult) : (s.deliver r).buf = s.buf := rfl
@[simp] theorem deliver_phase (r : OpResult) : (s.deliver r).phase = s.phase := rfl
@[simp] theorem deliver_cur (r : OpResult) : (s.deliver r).cur = s.cur := rfl
@[simp] theorem deliver_val (r : OpResult) : (s.deliver r).val = s.val := rfl
@[simp] theorem deliver_valOk (r : OpResult) : (s.deliver r).valOk = s.valOk := rfl
@[simp] theorem deliver_events (r : OpResult) : (s.deliver r).events = s.events := rfl
@[simp] theorem deliver_inputs (r : OpResult) : (s.deliver r).inputs = s.inputs := rfl
@[simp] theorem deliver_result (r : OpResult) : (s.deliver r).result = r := rfl
@[simp] theorem deliver_resultSeq (r : OpResult) : (s.deliver r).resultSeq = s.resultSeq + 1 := rfl
@[simp] theorem deliver_busScript (r : OpResult) : (s.deliver r).busScript = s.busScript := rfl
@[simp] theorem deliver_sinkScript (r : OpResult) : (s.deliver r).sinkScript = s.sinkScript := rfl
@[simp] theorem deliver_draws (r : OpResult) : (s.deliver r).draws = s.draws := rfl
@[simp] theorem deliver_inbox (r : OpResult) : (s.deliver r).inbox = s.inbox := rfl

/-! busExchange -/

@[simp] theorem busExchange_idx (tx : Frame) : (busExchange tx s).2.idx = s.idx := rfl
@[simp] theorem busExchange_runState (tx : Frame) : (busExchange tx s).2.runState = s.runState := rfl
@[simp] theorem busExchange_stopCause (tx : Frame) : (busExchange tx s).2.stopCause = s.stopCause := rfl
@[simp] theorem busExchange_modeQ (tx : Frame) : (busExchange tx s).2.modeQ = s.modeQ := rfl
@[simp] theorem busExchange_buf (tx : Frame) : (busExchange tx s).2.buf = s.buf := rfl
@[simp] theorem busExchange_phase (tx : Frame) : (busExchange tx s).2.phase = s.phase := rfl
@[simp] theorem busExchange_cur (tx : Frame) : (busExchange tx s).2.cur = s.cur := rfl
@[simp] theorem busExchange_val (tx : Frame) : (busExchange tx s).2.val = s.val := rfl
@[simp] theorem busExchange_valOk (tx : Frame) : (busExchange tx s).2.valOk = s.valOk := rfl
@[simp] theorem busExchange_events (tx : Frame) : (busExchange tx s).2.events = s.events ++ [.exchange tx s.busAnswer] := rfl
@[simp] theorem busExchange_inputs (tx : Frame) : (busExchange tx s).2.inputs = s.inputs := rfl
@[simp] theorem busExchange_result (tx : Frame) : (busExchange tx s).2.result = s.result := rfl
@[simp] theorem busExchange_resultSeq (tx : Frame) : (busExchange tx s).2.resultSeq = s.resultSeq := rfl
@[simp] theorem busExchange_busScript (tx : Frame) : (busExchange tx s).2.busScript = s.busScript.tail := rfl
@[simp] theorem busExchange_sinkScript (tx : Frame) : (busExchange tx s).2.sinkScript = s.sinkScript := rfl
@[simp] theorem busExchange_draws (tx : Frame) : (busExchange tx s).2.draws = s.draws + 1 := rfl
@[simp] theorem busExchange_inbox (tx : Frame) : (busExchange tx s).2.inbox = s.inbox := rfl

/-! sinkAppend -/

@[simp] theorem sinkAppend_idx (ch : BitVec 4) (v : BitVec 10) : (sinkAppend ch v s).2.idx = s.idx := rfl
@[simp] theorem sinkAppend_runState (ch : BitVec 4) (v : BitVec 10) : (sinkAppend ch v s).2.runState = s.runState := rfl
@[simp] theorem sinkAppend_stopCause (ch : BitVec 4) (v : BitVec 10) : (sinkAppend ch v s).2.stopCause = s.stopCause := rfl
@[simp] theorem sinkAppend_modeQ (ch : BitVec 4) (v : BitVec 10) : (sinkAppend ch v s).2.modeQ = s.modeQ := rfl
@[simp] theorem sinkAppend_buf (ch : BitVec 4) (v : BitVec 10) : (sinkAppend ch v s).2.buf = s.buf := rfl
@[simp] theorem sinkAppend_phase (ch : BitVec 4) (v : BitVec 10) : (sinkAppend ch v s).2.phase = s.phase := rfl
@[simp] theorem sinkAppend_cur (ch : BitVec 4) (v : BitVec 10) : (sinkAppend ch v s).2.cur = s.cur := rfl
@[simp] theorem sinkAppend_val (ch : BitVec 4) (v : BitVec 10) : (sinkAppend ch v s).2.val = s.val := rfl
@[simp] theorem sinkAppend_valOk (ch : BitVec 4) (v : BitVec 10) : (sinkAppend ch v s).2.valOk = s.valOk := rfl
@[simp] theorem sinkAppend_events (ch : BitVec 4) (v : BitVec 10) : (sinkAppend ch v s).2.events = s.events ++ [.record ch v s.sinkAnswer] := rfl
@[simp] theorem sinkAppend_inputs (ch : BitVec 4) (v : BitVec 10) : (sinkAppend ch v s).2.inputs = s.inputs := rfl
@[simp] theorem sinkAppend_result (ch : BitVec 4) (v : BitVec 10) : (sinkAppend ch v s).2.result = s.result := rfl
@[simp] theorem sinkAppend_resultSeq (ch : BitVec 4) (v : BitVec 10) : (sinkAppend ch v s).2.resultSeq = s.resultSeq := rfl
@[simp] theorem sinkAppend_busScript (ch : BitVec 4) (v : BitVec 10) : (sinkAppend ch v s).2.busScript = s.busScript := rfl
@[simp] theorem sinkAppend_sinkScript (ch : BitVec 4) (v : BitVec 10) : (sinkAppend ch v s).2.sinkScript = s.sinkScript.tail := rfl
@[simp] theorem sinkAppend_draws (ch : BitVec 4) (v : BitVec 10) : (sinkAppend ch v s).2.draws = s.draws + 1 := rfl
@[simp] theorem sinkAppend_inbox (ch : BitVec 4) (v : BitVec 10) : (sinkAppend ch v s).2.inbox = s.inbox := rfl

/-! openWork -/

@[simp] theorem openWork_idx : s.openWork.idx = s.idx := rfl
@[simp] theorem openWork_runState : s.openWork.runState = s.runState := rfl
@[simp] theorem openWork_stopCause : s.openWork.stopCause = s.stopCause := rfl
@[simp] theorem openWork_modeQ : s.openWork.modeQ = s.modeQ := rfl
@[simp] theorem openWork_buf : s.openWork.buf = s.buf := rfl
@[simp] theorem openWork_phase : s.openWork.phase = s.phase := rfl
@[simp] theorem openWork_cur : s.openWork.cur = Config.openCur s.draws := rfl
@[simp] theorem openWork_val : s.openWork.val = Config.openVal s.draws := rfl
@[simp] theorem openWork_valOk : s.openWork.valOk = Config.openValOk s.draws := rfl
@[simp] theorem openWork_events : s.openWork.events = s.events := rfl
@[simp] theorem openWork_inputs : s.openWork.inputs = s.inputs := rfl
@[simp] theorem openWork_result : s.openWork.result = s.result := rfl
@[simp] theorem openWork_resultSeq : s.openWork.resultSeq = s.resultSeq := rfl
@[simp] theorem openWork_busScript : s.openWork.busScript = s.busScript := rfl
@[simp] theorem openWork_sinkScript : s.openWork.sinkScript = s.sinkScript := rfl
@[simp] theorem openWork_draws : s.openWork.draws = s.draws + 1 := rfl
@[simp] theorem openWork_inbox : s.openWork.inbox = s.inbox := rfl

/-! stopEntry -/

@[simp] theorem stopEntry_idx (c : StopCause) : (s.stopEntry c).idx = s.idx := rfl
@[simp] theorem stopEntry_runState (c : StopCause) : (s.stopEntry c).runState = .stopped := rfl
@[simp] theorem stopEntry_stopCause (c : StopCause) : (s.stopEntry c).stopCause = c := rfl
@[simp] theorem stopEntry_modeQ (c : StopCause) : (s.stopEntry c).modeQ = s.modeQ := rfl
@[simp] theorem stopEntry_buf (c : StopCause) : (s.stopEntry c).buf = s.buf := rfl
@[simp] theorem stopEntry_phase (c : StopCause) : (s.stopEntry c).phase = s.phase := rfl
@[simp] theorem stopEntry_cur (c : StopCause) : (s.stopEntry c).cur = s.cur := rfl
@[simp] theorem stopEntry_val (c : StopCause) : (s.stopEntry c).val = s.val := rfl
@[simp] theorem stopEntry_valOk (c : StopCause) : (s.stopEntry c).valOk = s.valOk := rfl
@[simp] theorem stopEntry_events (c : StopCause) : (s.stopEntry c).events = s.events ++ [.stop c] := rfl
@[simp] theorem stopEntry_inputs (c : StopCause) : (s.stopEntry c).inputs = s.inputs := rfl
@[simp] theorem stopEntry_result (c : StopCause) : (s.stopEntry c).result = s.result := rfl
@[simp] theorem stopEntry_resultSeq (c : StopCause) : (s.stopEntry c).resultSeq = s.resultSeq := rfl
@[simp] theorem stopEntry_busScript (c : StopCause) : (s.stopEntry c).busScript = s.busScript := rfl
@[simp] theorem stopEntry_sinkScript (c : StopCause) : (s.stopEntry c).sinkScript = s.sinkScript := rfl
@[simp] theorem stopEntry_draws (c : StopCause) : (s.stopEntry c).draws = s.draws := rfl
@[simp] theorem stopEntry_inbox (c : StopCause) : (s.stopEntry c).inbox = s.inbox := rfl

/-! advance -/

@[simp] theorem advance_idx : s.advance.idx = nextIndex s.inputs.cfgWrapPolicy s.inputs.cfgChannelCount s.idx := rfl
@[simp] theorem advance_runState : s.advance.runState = s.runState := rfl
@[simp] theorem advance_stopCause : s.advance.stopCause = s.stopCause := rfl
@[simp] theorem advance_modeQ : s.advance.modeQ = s.modeQ := rfl
@[simp] theorem advance_buf : s.advance.buf = s.buf := rfl
@[simp] theorem advance_phase : s.advance.phase = s.phase := rfl
@[simp] theorem advance_cur : s.advance.cur = s.cur := rfl
@[simp] theorem advance_val : s.advance.val = s.val := rfl
@[simp] theorem advance_valOk : s.advance.valOk = s.valOk := rfl
@[simp] theorem advance_events : s.advance.events = s.events ++ [.advance s.idx (nextIndex s.inputs.cfgWrapPolicy s.inputs.cfgChannelCount s.idx)] := rfl
@[simp] theorem advance_inputs : s.advance.inputs = s.inputs := rfl
@[simp] theorem advance_result : s.advance.result = s.result := rfl
@[simp] theorem advance_resultSeq : s.advance.resultSeq = s.resultSeq := rfl
@[simp] theorem advance_busScript : s.advance.busScript = s.busScript := rfl
@[simp] theorem advance_sinkScript : s.advance.sinkScript = s.sinkScript := rfl
@[simp] theorem advance_draws : s.advance.draws = s.draws := rfl
@[simp] theorem advance_inbox : s.advance.inbox = s.inbox := rfl

@[simp] theorem busExchange_answer (tx : Frame) : (busExchange tx s).1 = s.busAnswer := rfl
@[simp] theorem sinkAppend_answer (ch : BitVec 4) (v : BitVec 10) : (sinkAppend ch v s).1 = s.sinkAnswer := rfl

end Sys2Proof.Machine
end

