-- ==== Sys2Proof/Laws/Machine.lean ====
section
/-! SUPPORT. For each shared operation one lemma that says everything it can do; proofs cite these
and do not unfold the operation. -/

namespace Sys2Proof.Machine

/-- The legal configurations (R14). -/
theorem configLegal_iff (s : State) : s.configLegal = true ↔
    1 ≤ s.inputs.cfgChannelCount.toNat ∧ s.inputs.cfgChannelCount.toNat ≤ 8 := by
  simp only [State.configLegal, Bool.and_eq_true, decide_eq_true_eq]
  exact Iff.rfl

theorem isReset_iff (i : Instr) : isReset i = true ↔ i = .reset := by cases i <;> simp [isReset]

theorem acceptsCommand_iff (s : State) :
    s.acceptsCommand = true ↔ s.runState = .stopped ∨ s.phase = .p1 := by
  cases h : s.runState <;> simp [State.acceptsCommand, h]

/-- A run's first step, for any machine of the host's interface. -/
theorem run_succ_next (M : Host.Core) (k : Nat) (s s' : M.State) (h : M.step s = .next s') :
    M.run (k + 1) s = M.run k s' := by
  simp only [Host.Core.run, h]

/-- `modeSelector` and the range check in numbers (R44, R58). -/
theorem buildFrame_valid (mode : Mode) (channel : BitVec 8) (h : channel.toNat ≤ 7) :
    buildFrame mode channel =
      .frame ⟨Config.startByte, selectorByte mode channel, Config.padByte⟩ := by
  simp [buildFrame, channelInRange, Config.nDevice, h]

theorem buildFrame_invalid (mode : Mode) (channel : BitVec 8) (h : 8 ≤ channel.toNat) :
    buildFrame mode channel = .invalidChannel := by
  have h' : ¬ channel.toNat ≤ 7 := by omega
  simp [buildFrame, channelInRange, Config.nDevice, h']

/-- TRANSACT: suppressed, or one exchange whose answer is returned. -/
theorem transact_cases (mode : Mode) (channel : BitVec 8) (s : State) :
    (8 ≤ channel.toNat ∧ transact mode channel s = (.invalidChannel, s)) ∨
    (channel.toNat ≤ 7 ∧ ∃ tx, buildFrame mode channel = .frame tx ∧
      ((∃ rx, s.busAnswer = .ok rx ∧ transact mode channel s = (.ok rx, (busExchange tx s).2)) ∨
       (s.busAnswer = .fail ∧
         transact mode channel s = (.transactionFailure, (busExchange tx s).2)))) := by
  by_cases h : channel.toNat ≤ 7
  · refine .inr ⟨h, _, buildFrame_valid mode channel h, ?_⟩
    cases ha : s.busAnswer with
    | ok rx => exact .inl ⟨rx, rfl, by simp [transact, buildFrame_valid mode channel h, ha]⟩
    | fail => exact .inr ⟨rfl, by simp [transact, buildFrame_valid mode channel h, ha]⟩
  · have h8 : 8 ≤ channel.toNat := by omega
    exact .inl ⟨h8, by simp [transact, buildFrame_invalid mode channel h8]⟩

/-- READ: the sentinel and nothing else, a value, or a failure. -/
theorem readSample_cases (mode : Mode) (channel : BitVec 8) (s : State) :
    (8 ≤ channel.toNat ∧ readSample mode channel s = (.sentinel, s)) ∨
    (channel.toNat ≤ 7 ∧ ∃ tx, buildFrame mode channel = .frame tx ∧
      ((∃ rx, s.busAnswer = .ok rx ∧
          readSample mode channel s = (.value (extractValue rx), (busExchange tx s).2)) ∨
       (s.busAnswer = .fail ∧
         readSample mode channel s = (.transactionFailure, (busExchange tx s).2)))) := by
  obtain ⟨h, e⟩ | ⟨h, tx, htx, ⟨rx, ha, e⟩ | ⟨ha, e⟩⟩ := transact_cases mode channel s
  · exact .inl ⟨h, by simp [readSample, e]⟩
  · exact .inr ⟨h, tx, htx, .inl ⟨rx, ha, by simp [readSample, e]⟩⟩
  · exact .inr ⟨h, tx, htx, .inr ⟨ha, by simp [readSample, e]⟩⟩

/-- `zext_8` keeps the number. -/
@[simp] theorem channelOfIndex_toNat (idx : BitVec 4) : (channelOfIndex idx).toNat = idx.toNat := by
  have := idx.isLt
  simp only [channelOfIndex, BitVec.toNat_setWidth]
  omega

/-- Step 2: absorbed, a value, or fatal. -/
theorem stepP2_cases (s : State) :
    (8 ≤ s.cur.toNat ∧ stepP2 s =
      { s with val := Config.openVal s.draws, valOk := false, draws := s.draws + 1, phase := .p3 }) ∨
    (s.cur.toNat ≤ 7 ∧ ∃ tx, buildFrame s.modeQ (channelOfIndex s.cur) = .frame tx ∧
      ((∃ rx, s.busAnswer = .ok rx ∧ stepP2 s =
          { (busExchange tx s).2 with val := extractValue rx, valOk := true, phase := .p3 }) ∨
       (s.busAnswer = .fail ∧ stepP2 s = (busExchange tx s).2.stopEntry .transactionFailure))) := by
  obtain ⟨h, e⟩ | ⟨h, tx, htx, ⟨rx, ha, e⟩ | ⟨ha, e⟩⟩ :=
    readSample_cases s.modeQ (channelOfIndex s.cur) s
  · exact .inl ⟨by simpa using h, by simp [stepP2, e]⟩
  · exact .inr ⟨by simpa using h, tx, htx, .inl ⟨rx, ha, by simp [stepP2, e]⟩⟩
  · exact .inr ⟨by simpa using h, tx, htx, .inr ⟨ha, by simp [stepP2, e]⟩⟩

/-- Step 3: the store, or nothing but the step pointer. -/
theorem stepP3_cases (s : State) :
    (s.valOk = true ∧ s.cur.toNat ≤ 7 ∧ stepP3 s =
      { s with
        buf := s.buf.write s.cur.toNat s.val
        phase := .p4
        events := s.events ++ [.store s.cur s.val] }) ∨
    (¬ (s.valOk = true ∧ s.cur.toNat ≤ 7) ∧ stepP3 s = { s with phase := .p4 }) := by
  by_cases h : s.valOk = true ∧ s.cur.toNat < Config.bufEntries
  · exact .inl ⟨h.1, Nat.le_of_lt_succ h.2, by simp [stepP3, h, State.emit]⟩
  · exact .inr ⟨fun h' => h ⟨h'.1, Nat.lt_succ_of_le h'.2⟩, by simp only [stepP3, if_neg h]⟩

/-- Step 5: nothing to record, recorded, or fatal. -/
theorem stepP5_cases (s : State) :
    (s.valOk = false ∧ stepP5 s = { s with phase := .p6 }) ∨
    (s.valOk = true ∧ s.sinkAnswer = .ok ∧
      stepP5 s = { (sinkAppend s.cur s.val s).2 with phase := .p6 }) ∨
    (s.valOk = true ∧ s.sinkAnswer = .fail ∧
      stepP5 s = (sinkAppend s.cur s.val s).2.stopEntry .sinkFailure) := by
  cases hv : s.valOk with
  | false => exact .inl ⟨rfl, by simp [stepP5, hv]⟩
  | true =>
    cases ha : s.sinkAnswer with
    | ok => exact .inr (.inl ⟨rfl, rfl, by simp [stepP5, hv, ha]⟩)
    | fail => exact .inr (.inr ⟨rfl, rfl, by simp [stepP5, hv, ha]⟩)

/-- STOP: nothing when Stopped, else the entry. -/
theorem stopLoop_cases (s : State) :
    (s.runState = .stopped ∧ s.stopLoop = s) ∨
    (s.runState = .running ∧ s.stopLoop = s.stopEntry .stopSignal) := by
  cases h : s.runState with
  | stopped => exact .inl ⟨rfl, by simp [State.stopLoop, h]⟩
  | running => exact .inr ⟨rfl, by simp [State.stopLoop, h]⟩

/-- RESET's start-up: one of three, the bus failure first (R102 (b)). -/
theorem startUp_cases (s : State) :
    (s.inputs.initBusOk = false ∧ s.startUp =
      { s with
        runState := .stopped, stopCause := .busInitFailure
        events := [.reset, .stop .busInitFailure] }) ∨
    (s.inputs.initBusOk = true ∧ s.inputs.initGpioOk = false ∧ s.startUp =
      { s with
        runState := .stopped, stopCause := .gpioInitFailure
        events := [.reset, .stop .gpioInitFailure] }) ∨
    (s.inputs.initBusOk = true ∧ s.inputs.initGpioOk = true ∧ s.startUp =
      { s with runState := .running, stopCause := .none, events := [.reset] }) := by
  cases hb : s.inputs.initBusOk with
  | false => exact .inl ⟨rfl, by simp [State.startUp, hb, State.stopEntry]⟩
  | true =>
    cases hg : s.inputs.initGpioOk with
    | false => exact .inr (.inl ⟨rfl, rfl, by simp [State.startUp, hb, hg, State.stopEntry]⟩)
    | true => exact .inr (.inr ⟨rfl, rfl, by simp [State.startUp, hb, hg]⟩)

/-- The block alone: nothing when Stopped, STOP at the boundary, or the step the pointer names. -/
theorem freeRun_cases (s : State) :
    (s.runState = .stopped ∧ s.freeRun = s) ∨
    (s.runState = .running ∧
      ((s.phase = .p1 ∧ s.inputs.stop = true ∧ s.freeRun = s.stopEntry .stopSignal) ∨
       (s.phase = .p1 ∧ s.inputs.stop = false ∧ s.freeRun = stepP1 s) ∨
       (s.phase = .p2 ∧ s.freeRun = stepP2 s) ∨ (s.phase = .p3 ∧ s.freeRun = stepP3 s) ∨
       (s.phase = .p4 ∧ s.freeRun = stepP4 s) ∨ (s.phase = .p5 ∧ s.freeRun = stepP5 s) ∨
       (s.phase = .p6 ∧ s.freeRun = stepP6 s))) := by
  unfold State.freeRun
  cases hr : s.runState with
  | stopped => exact .inl ⟨rfl, rfl⟩
  | running =>
    refine .inr ⟨rfl, ?_⟩
    cases hp : s.phase with
    | p1 =>
      cases hs : s.inputs.stop with
      | true => exact .inl ⟨rfl, rfl, by simp only [State.stopLoop, hr, if_true]⟩
      | false => exact .inr (.inl ⟨rfl, rfl, rfl⟩)
    | p2 => exact .inr (.inr (.inl ⟨rfl, rfl⟩))
    | p3 => exact .inr (.inr (.inr (.inl ⟨rfl, rfl⟩)))
    | p4 => exact .inr (.inr (.inr (.inr (.inl ⟨rfl, rfl⟩))))
    | p5 => exact .inr (.inr (.inr (.inr (.inr (.inl ⟨rfl, rfl⟩)))))
    | p6 => exact .inr (.inr (.inr (.inr (.inr (.inr ⟨rfl, rfl⟩)))))

/-- The rest of an iteration after step 5. -/
theorem finishIteration_cases (s : State) :
    (s.runState = .stopped ∧ finishIteration s = s) ∨
    (s.runState = .running ∧ finishIteration s = stepP6 s) := by
  unfold finishIteration
  cases hr : s.runState with
  | stopped => exact .inl ⟨rfl, rfl⟩
  | running => exact .inr ⟨rfl, rfl⟩

/-- The rest of an iteration after step 2. -/
theorem continueIteration_cases (s : State) :
    (s.runState = .stopped ∧ continueIteration s = s) ∨
    (s.runState = .running ∧
      continueIteration s = finishIteration (stepP5 (stepP4 (stepP3 s)))) := by
  unfold continueIteration
  cases hr : s.runState with
  | stopped => exact .inl ⟨rfl, rfl⟩
  | running => exact .inr ⟨rfl, rfl⟩

/-- ITERATE: nothing when Stopped, STOP, or the six steps (R88). -/
theorem iterate_cases (s : State) :
    (s.runState = .stopped ∧ s.iterate = s) ∨
    (s.runState = .running ∧ s.inputs.stop = true ∧ s.iterate = s.stopEntry .stopSignal) ∨
    (s.runState = .running ∧ s.inputs.stop = false ∧
      s.iterate = continueIteration (stepP2 (stepP1 s))) := by
  unfold State.iterate
  cases hr : s.runState with
  | stopped => exact .inl ⟨rfl, rfl⟩
  | running =>
    cases hs : s.inputs.stop with
    | true => exact .inr (.inl ⟨rfl, rfl, by simp only [State.stopLoop, hr, if_true]⟩)
    | false => exact .inr (.inr ⟨rfl, rfl, rfl⟩)

/-- RESET leaves what is the outside's. -/
theorem resetBlock_keeps (s : State) :
    s.resetBlock.inputs = s.inputs ∧ s.resetBlock.inbox = s.inbox ∧
      s.resetBlock.busScript = s.busScript ∧ s.resetBlock.sinkScript = s.sinkScript ∧
      s.resetBlock.result = s.result ∧ s.resetBlock.resultSeq = s.resultSeq := by
  unfold State.resetBlock
  obtain ⟨_, e⟩ | ⟨_, _, e⟩ | ⟨_, _, e⟩ := startUp_cases
    { s with idx := 0#4, phase := .p1, modeQ := s.inputs.cfgMode, buf := [] } <;>
    rw [e] <;> exact ⟨rfl, rfl, rfl, rfl, rfl, rfl⟩

/-- Every operation answers a next state. -/
theorem exec_next (i : Instr) (s : State) : ∃ t, exec i s = .next t := by
  cases i <;> exact ⟨_, rfl⟩

/-- A step that answers a next state: what it was. -/
theorem step_cases {s t : State} (h : step s = .next t) :
    s.configLegal = true ∧
    ((s.inbox = [] ∧ t = s.freeRun) ∨
     (∃ rest, s.inbox = .idle :: rest ∧ t = State.freeRun { s with inbox := rest }) ∨
     (∃ rest, s.inbox = .reset :: rest ∧ t = State.resetBlock { s with inbox := rest }) ∨
     (∃ b rest, s.inbox = .setStop b :: rest ∧
        t = { s with inbox := rest, inputs := { s.inputs with stop := b } }) ∨
     (∃ m rest, s.inbox = .setMode m :: rest ∧
        t = { s with inbox := rest, inputs := { s.inputs with cfgMode := m } }) ∨
     (∃ b g rest, s.inbox = .setInit b g :: rest ∧
        t = { s with inbox := rest, inputs := { s.inputs with initBusOk := b, initGpioOk := g } }) ∨
     (∃ i v rest, s.inbox = .readEntry i :: rest ∧ i < Config.bufEntries ∧ s.buf.read i = some v ∧
        t = State.deliver { s with inbox := rest } (.entry v)) ∨
     (∃ w i rest, s.inbox = .command w :: rest ∧ decode w = .ok i ∧
        (isReset i || s.acceptsCommand) = true ∧ exec i { s with inbox := rest } = .next t) ∨
     (∃ w i rest, s.inbox = .command w :: rest ∧ decode w = .ok i ∧
        (isReset i || s.acceptsCommand) = false ∧ t = s.freeRun)) := by
  simp only [step, controlStep] at h
  split at h
  case isFalse => cases h
  case isTrue hc =>
    refine ⟨hc, ?_⟩
    split at h
    case h_1 hi => exact .inl ⟨hi, by simpa using h.symm⟩
    case h_2 m rest hi =>
      cases m with
      | idle => exact .inr (.inl ⟨rest, hi, by simpa [serveMove] using h.symm⟩)
      | reset => exact .inr (.inr (.inl ⟨rest, hi, by simpa [serveMove] using h.symm⟩))
      | setStop b =>
        exact .inr (.inr (.inr (.inl ⟨b, rest, hi, by simpa [serveMove] using h.symm⟩)))
      | setMode m =>
        exact .inr (.inr (.inr (.inr (.inl ⟨m, rest, hi, by simpa [serveMove] using h.symm⟩))))
      | setInit b g =>
        exact .inr (.inr (.inr (.inr (.inr (.inl
          ⟨b, g, rest, hi, by simpa [serveMove] using h.symm⟩)))))
      | readEntry i =>
        simp only [serveMove, readEntry] at h
        split at h
        case isFalse => cases h
        case isTrue hlt =>
          split at h
          case h_1 v hv =>
            exact .inr (.inr (.inr (.inr (.inr (.inr (.inl
              ⟨i, v, rest, hi, hlt, hv, by simpa using h.symm⟩))))))
          case h_2 => cases h
      | command w =>
        simp only [serveMove, runCommand] at h
        split at h
        case h_1 => cases h
        case h_2 i hd =>
          split at h
          case isTrue ha =>
            exact .inr (.inr (.inr (.inr (.inr (.inr (.inr (.inl ⟨w, i, rest, hi, hd, ha, h⟩)))))))
          case isFalse ha =>
            exact .inr (.inr (.inr (.inr (.inr (.inr (.inr (.inr
              ⟨w, i, rest, hi, hd, Bool.eq_false_iff.mpr ha, by simpa using h.symm⟩)))))))

end Sys2Proof.Machine
end

