-- ==== Sys2Proof/Laws/PerInstr.lean ====
section
/-! SUPPORT. Statements made per instruction. Family TableRow: the encoder's word of a well-formed
instruction has the bits its row of spec/opcode_table.json fixes (mask and match over the word). -/

namespace Sys2Proof.Laws.TableRow

/-- A row's mask and match, from spec/opcode_table.json, over the word of the row's format. -/
def rowMaskMatch : Instr → Nat × Nat
  | .cmdSe _ => (0xFF8FFF, 0x018000)
  | .cmdDiff _ => (0xFF8FFF, 0x010000)
  | .rsp _ => (0x000000, 0x000000)
  | .encode _ _ => (0xF, 0x0)
  | .transact _ _ => (0xF, 0x1)
  | .decode _ => (0xF, 0x2)
  | .read _ _ => (0xF, 0x3)
  | .current => (0xF, 0x4)
  | .advance => (0xF, 0x5)
  | .iterate => (0xF, 0x6)
  | .stop => (0xF, 0x7)
  | .reset => (0xF, 0x8)

/-- The number a port word is. -/
def wordNat : PortWord → Nat
  | .op w => w.toNat
  | .cmd f => f.toNat
  | .rsp f => f.toNat

/-- The word of a well-formed instruction matches its row. -/
def Statement (i : Instr) : Prop :=
  i.wellFormed = true → wordNat (encode i) &&& (rowMaskMatch i).1 = (rowMaskMatch i).2

/-- An OP word ends in its operation code. -/
theorem op_nibble (x : BitVec 28) (op : BitVec 4) : (x ++ op).toNat &&& 0xF = op.toNat := by
  have hop := op.isLt
  rw [BitVec.toNat_append, ← Nat.shiftLeft_add_eq_or_of_lt hop, Nat.shiftLeft_eq,
    show (0xF : Nat) = 2 ^ 4 - 1 from rfl, Nat.and_two_pow_sub_one_eq_mod]
  omega

theorem cmdSe (channel : BitVec 8) : Statement (.cmdSe channel) := by
  intro _
  exact (by decide : ∀ c : BitVec 8, wordNat (encode (.cmdSe c)) &&& 0xFF8FFF = 0x018000) channel

theorem cmdDiff (channel : BitVec 8) : Statement (.cmdDiff channel) := by
  intro _
  exact (by decide : ∀ c : BitVec 8, wordNat (encode (.cmdDiff c)) &&& 0xFF8FFF = 0x010000) channel

theorem rsp (frame : Frame) : Statement (.rsp frame) := fun _ => Nat.and_zero _

theorem encode (mode : Mode) (channel : BitVec 8) : Statement (.encode mode channel) := fun _ => by
  simpa [wordNat, Sys2Proof.encode, opWordModeChannel, rowMaskMatch] using
    op_nibble (0#16 ++ channel ++ 0#3 ++ mode.bit) 0x0#4

theorem transact (mode : Mode) (channel : BitVec 8) : Statement (.transact mode channel) := fun _ => by
  simpa [wordNat, Sys2Proof.encode, opWordModeChannel, rowMaskMatch] using
    op_nibble (0#16 ++ channel ++ 0#3 ++ mode.bit) 0x1#4

theorem decode (rx : Frame) : Statement (.decode rx) := fun _ => by
  simpa [wordNat, Sys2Proof.encode, opWordFrame, rowMaskMatch] using
    op_nibble (rx.toWord ++ 0#4) 0x2#4

theorem read (mode : Mode) (channel : BitVec 8) : Statement (.read mode channel) := fun _ => by
  simpa [wordNat, Sys2Proof.encode, opWordModeChannel, rowMaskMatch] using
    op_nibble (0#16 ++ channel ++ 0#3 ++ mode.bit) 0x3#4

theorem current : Statement .current := fun _ => by decide
theorem advance : Statement .advance := fun _ => by decide
theorem iterate : Statement .iterate := fun _ => by decide
theorem stop : Statement .stop := fun _ => by decide
theorem reset : Statement .reset := fun _ => by decide

end Sys2Proof.Laws.TableRow
end

