-- ==== Sys2Proof/Tests/Slice0.lean ====
section
/-! SUPPORT. The model's own tests, each expected value from the spec's words or its test vectors
(95_test_vectors), and for every statement with hypotheses a state that meets them. -/

namespace Sys2Proof.Tests

open Sys2Proof.Machine

/-! ## Helpers -/

/-- The next state, if there is one. -/
def after (o : Host.Outcome State Fault Refusal) : Option State :=
  match o with
  | .next t => some t
  | .fault _ => none
  | .refused _ => none

/-- Right after reset, with a device script and a sink script (R52). -/
def bench (bus : List BusResult) (sink : List SinkResult) : State :=
  { State.reset with busScript := bus, sinkScript := sink }

/-- The reply of the source's worked example. -/
def reply564 : BusResult := .ok ⟨0x00#8, 0x02#8, 0x34#8⟩

/-- The bench with the block at a step of an iteration. -/
def atPhase (p : Phase) (s : State) : State := { s with phase := p }

/-- The bench with a configured count and policy. -/
def counting (policy : WrapPolicy) (count idx : BitVec 4) : State :=
  { State.reset with
    idx := idx
    inputs := { State.reset.inputs with cfgWrapPolicy := policy, cfgChannelCount := count } }

/-- A Stopped state with the cause of a failed exchange (R98, R103). -/
def failed : State :=
  { State.reset with
    runState := .stopped, stopCause := .transactionFailure, phase := .p2
    events := [.reset, .exchange ⟨0x01#8, 0x80#8, 0x00#8⟩ .fail, .stop .transactionFailure] }

/-- The bench with host moves to come. -/
def hosted (moves : List HostMove) : State := { State.reset with inbox := moves }

/-! ## Well-formedness -/

/-- R43: the channel field has three bits, so channel 8 has no command frame. -/
theorem test_wf_cmd_se_refuses_8 : (Instr.cmdSe 8#8).wellFormed = false := by decide
theorem test_wf_cmd_diff_refuses_8 : (Instr.cmdDiff 8#8).wellFormed = false := by decide
theorem test_wf_cmd_se_takes_7 : (Instr.cmdSe 7#8).wellFormed = true := by decide
theorem test_wf_operand_255 : (Instr.transact .singleEnded 255#8).wellFormed = true := by decide

/-! ## Decoding: one word a constructor, written out from the spec -/

/-- R45: SingleEnded, channel 1. -/
theorem test_decode_cmd_se : decode (.cmd 0x019000#24) = .ok (.cmdSe 1#8) := by decide
/-- R45: SingleEnded, channel 7. -/
theorem test_decode_cmd_se_7 : decode (.cmd 0x01F000#24) = .ok (.cmdSe 7#8) := by decide
/-- R45: Differential, channel 7. -/
theorem test_decode_cmd_diff : decode (.cmd 0x017000#24) = .ok (.cmdDiff 7#8) := by decide
/-- R46, R7: byte 0 in bits 23 to 16. -/
theorem test_decode_rsp : decode (.rsp 0xABFE80#24) = .ok (.rsp ⟨0xAB#8, 0xFE#8, 0x80#8⟩) := by decide
/-- R50 (a): byte 2 is not zero, so no command frame. -/
theorem test_decode_not_a_command :
    decode (.cmd 0x019001#24) = .error (.notACommandFrame 0x019001#24) := by decide
/-- R49: op 0x0, mode 1 (R14: SingleEnded), channel 200; places: log entry 2. -/
theorem test_decode_encode : decode (.op 0x0000C810#32) = .ok (.encode .singleEnded 200#8) := by decide
/-- R49: op 0x1, mode 0, channel 7. -/
theorem test_decode_transact : decode (.op 0x00000701#32) = .ok (.transact .differential 7#8) := by
  decide
/-- R49: op 0x2, the reply [0x00, 0x02, 0x34]. -/
theorem test_decode_decode :
    decode (.op 0x00023402#32) = .ok (.decode ⟨0x00#8, 0x02#8, 0x34#8⟩) := by decide
/-- R49: op 0x3, mode 1, channel 1. -/
theorem test_decode_read : decode (.op 0x00000113#32) = .ok (.read .singleEnded 1#8) := by decide
/-- R49: op 0x4. -/
theorem test_decode_current : decode (.op 0x4#32) = .ok .current := by decide
/-- R49: op 0x5. -/
theorem test_decode_advance : decode (.op 0x5#32) = .ok .advance := by decide
/-- R49: op 0x6. -/
theorem test_decode_iterate : decode (.op 0x6#32) = .ok .iterate := by decide
/-- R49: op 0x7. -/
theorem test_decode_stop : decode (.op 0x7#32) = .ok .stop := by decide
/-- R49: op 0x8. -/
theorem test_decode_reset : decode (.op 0x8#32) = .ok .reset := by decide
/-- R50 (d). -/
theorem test_decode_reserved : decode (.op 0x9#32) = .error (.reservedOp 0x9#4) := by decide
/-- The table's rows by their own bits. -/
theorem test_table_cmd_se : decodeTableWord 24 0x018000 = some (.cmdSe 0#8) := by decide
theorem test_table_cmd_diff : decodeTableWord 24 0x010000 = some (.cmdDiff 0#8) := by decide
theorem test_table_rsp : decodeTableWord 24 0x000234 = some (.rsp ⟨0x00#8, 0x02#8, 0x34#8⟩) := by
  decide
theorem test_table_stop : decodeTableWord 8 0x7 = some .stop := by decide
theorem test_table_reserved : decodeTableWord 8 0xF = none := by decide

/-! ## The instructions, one step each -/

/-- R45, 95 section 2.2: the frame [0x01, 0x90, 0x00] goes out once. -/
theorem test_cmd_se_sends :
    (after (exec (.cmdSe 1#8) (bench [reply564] []))).map (·.events) =
      some [.reset, .exchange ⟨0x01#8, 0x90#8, 0x00#8⟩ reply564] := by decide
/-- R45, R61: a failed exchange is answered. -/
theorem test_cmd_diff_fails :
    (after (exec (.cmdDiff 7#8) (bench [.fail] []))).map (fun t => (t.result, t.events)) =
      some (.transacted .transactionFailure,
        [.reset, .exchange ⟨0x01#8, 0x70#8, 0x00#8⟩ .fail]) := by decide
/-- 95 section 2.3: [0x00, 0x03, 0x09] is 777. -/
theorem test_rsp_value :
    (after (exec (.rsp ⟨0x00#8, 0x03#8, 0x09#8⟩) State.reset)).map (·.result) =
      some (.decoded 777#10) := by decide

/-- 95 section 2.1: ENCODE SE, 1. -/
theorem test_encode_frame :
    (after (exec (.encode .singleEnded 1#8) State.reset)).map (·.result) =
      some (.encoded (.frame ⟨0x01#8, 0x90#8, 0x00#8⟩)) := by decide
/-- 95 section 2.1: the smallest invalid channel. -/
theorem test_encode_invalid :
    (after (exec (.encode .differential 8#8) State.reset)).map (·.result) =
      some (.encoded .invalidChannel) := by decide
/-- 95 section 2.2: returned raw, nothing masked. -/
theorem test_transact_raw :
    (after (exec (.transact .singleEnded 1#8) (bench [.ok ⟨0xFF#8, 0xFE#8, 0x34#8⟩] []))).map
        (·.portResult) = some (.transact 0#2 0xFFFE34#24) := by decide
/-- 95 section 2.2: channel 7 is valid with a count of 6. -/
theorem test_transact_device_range :
    (after (exec (.transact .singleEnded 7#8) (bench [.ok ⟨0#8, 0#8, 1#8⟩] []))).map (·.events) =
      some [.reset, .exchange ⟨0x01#8, 0xF0#8, 0x00#8⟩ (.ok ⟨0#8, 0#8, 1#8⟩)] := by decide
/-- 95 section 2.3: [0xAB, 0xFE, 0x80] is 640. -/
theorem test_decode_masks :
    (after (exec (.decode ⟨0xAB#8, 0xFE#8, 0x80#8⟩) State.reset)).map (·.result) =
      some (.decoded 640#10) := by decide
/-- 95 section 2.3: [0x00, 0x03, 0xFF] is 1023, so the shift is not truncated. -/
theorem test_decode_maximum :
    (after (exec (.decode ⟨0x00#8, 0x03#8, 0xFF#8⟩) State.reset)).map (·.result) =
      some (.decoded 1023#10) := by decide
/-- 95 section 2.4: READ SE, 8 is the sentinel, 0xFFFF, the device not asked. -/
theorem test_read_sentinel :
    (after (exec (.read .singleEnded 8#8) (bench [reply564] []))).map
        (fun t => (t.portResult, t.busScript, t.events)) =
      some (.read 1#2 0xFFFF#16, [reply564], [.reset]) := by decide
/-- 95 program P7 line 6: READ DIFF, 7 is Value(777), 0x0309. -/
theorem test_read_value :
    (after (exec (.read .differential 7#8) (bench [.ok ⟨0x00#8, 0x03#8, 0x09#8⟩] []))).map
        (fun t => (t.portResult, t.events)) =
      some (.read 0#2 0x0309#16,
        [.reset, .exchange ⟨0x01#8, 0x70#8, 0x00#8⟩ (.ok ⟨0x00#8, 0x03#8, 0x09#8⟩)]) := by decide
/-- R72. -/
theorem test_current :
    (after (exec .current (counting .strict 6#4 3#4))).map (fun t => (t.result, t.idx)) =
      some (.current 3#4, 3#4) := by decide
/-- 95 section 2.5: Strict, count 6: 5 to 0. -/
theorem test_advance_strict_wraps :
    (after (exec .advance (counting .strict 6#4 5#4))).map (fun t => (t.idx, t.events)) =
      some (0#4, [.reset, .advance 5#4 0#4]) := by decide
/-- 95 section 2.5: ReferenceQuirk, count 8: 7 to 8. -/
theorem test_advance_quirk_passes :
    (after (exec .advance (counting .referenceQuirk 8#4 7#4))).map (fun t => (t.idx, t.events)) =
      some (8#4, [.reset, .advance 7#4 8#4]) := by decide
/-- 95 section 2.7, first row. -/
theorem test_iterate_normal :
    (after (exec .iterate (bench [.ok ⟨0x00#8, 0x02#8, 0x00#8⟩] [.ok]))).map
        (fun t => (t.events, t.buf, t.idx, t.runState)) =
      some ([.reset, .exchange ⟨0x01#8, 0x80#8, 0x00#8⟩ (.ok ⟨0x00#8, 0x02#8, 0x00#8⟩),
          .store 0#4 512#10, .delay, .record 0#4 512#10 .ok, .advance 0#4 1#4],
        [(0, 512#10)], 1#4, .running) := by decide
/-- 95 section 2.7, fourth row: the sink fails, `stop_cause` 5, `idx` not advanced, `phase` P5. -/
theorem test_iterate_sink_failure :
    (after (exec .iterate { bench [.ok ⟨0x00#8, 0x00#8, 0x07#8⟩] [.fail] with idx := 2#4 })).map
        (fun t => (t.buf, t.idx, t.phase, t.runState, t.stopCause.code)) =
      some ([(2, 7#10)], 2#4, .p5, .stopped, 5#3) := by decide
/-- 95 section 2.8, first row. -/
theorem test_stop_running :
    (after (exec .stop { State.reset with idx := 3#4, buf := [(1, 9#10)] })).map
        (fun t => (t.runState, t.stopCause.code, t.idx, t.buf)) =
      some (.stopped, 1#3, 3#4, [(1, 9#10)]) := by decide
/-- 95 section 2.8, second row: the cause is not overwritten. -/
theorem test_stop_keeps_cause :
    (after (exec .stop failed)).map (fun t => (t.stopCause, t.events)) =
      some (.transactionFailure, failed.events) := by decide
/-- 95 section 2.8: both initialisations failed. -/
theorem test_reset_both_failed :
    (after (exec .reset
        { State.reset with
          idx := 5#4
          inputs := { State.reset.inputs with initBusOk := false, initGpioOk := false } })).map
        (fun t => (t.runState, t.stopCause.code, t.idx, t.events)) =
      some (.stopped, 2#3, 0#4, [.reset, .stop .busInitFailure]) := by decide
/-- 95 section 2.8: from a Stopped block, `cfg_mode` 0. -/
theorem test_reset_starts :
    (after (exec .reset
        { failed with
          buf := [(1, 9#10)], inputs := { State.reset.inputs with cfgMode := .differential } })).map
        (fun t => (t.runState, t.modeQ, t.phase.code, t.buf)) =
      some (.running, .differential, 1#3, []) := by decide

/-! ## Steps of the machine -/

/-- R81: the free-running block's first step. -/
theorem test_step_free_runs :
    (after (step State.reset)).map (fun t => (t.cur, t.phase)) = some (0#4, .p2) := by decide
/-- 95 section 2.7, last row, and R93: Stopped, nothing moves. -/
theorem test_step_stopped : after (step failed) = some failed := by decide
/-- 95 section 2.7: (8, Quirk, count 8): `Delay, Advance(8, 0)`. -/
theorem test_iterate_invalid_channel :
    (after (exec .iterate (counting .referenceQuirk 8#4 8#4))).map (fun t => (t.events, t.idx, t.buf)) =
      some ([.reset, .delay, .advance 8#4 0#4], 0#4, []) := by decide
/-- U8: no step on a reserved code. -/
theorem test_step_reserved : after (step (hosted [.command (.op 0x9#32)])) = none := by decide
/-- R49: the word of STOP placed after reset runs first. -/
theorem test_step_placed_stop :
    (after (step (State.reset.withFetchWord 8 0x7))).map (·.stopCause) = some .stopSignal := by decide
/-- 95 section 2.9. -/
theorem test_record_a3_512 : recordText 3#4 512#10 = ['A', '3', ':', ' ', '5', '1', '2'] := by decide
theorem test_record_a0_0 : recordText 0#4 0#10 = ['A', '0', ':', ' ', '0'] := by decide

/-! ## Witnesses: for each statement with hypotheses, what meets them -/

theorem test_witness_DecodeOfEncodeGivesBack :
    (Instr.cmdSe 7#8).wellFormed = true ∧ (Instr.cmdDiff 0#8).wellFormed = true ∧
      (Instr.read .differential 255#8).wellFormed = true := by decide

theorem test_witness_CommandWordsAreTheSixteenFrames :
    decode (.cmd 0x01F000#24) = .ok (.cmdSe 7#8) ∧ (commandFrame .singleEnded 7#8).toWord = 0x01F000#24 ∧
      decode (.cmd 0x010001#24) = .error (.notACommandFrame 0x010001#24) := by decide

theorem test_witness_CommandWordNamesModeAndChannel :
    (0#8).toNat ≤ 7 ∧ (7#8).toNat ≤ 7 := by decide

theorem test_witness_ReservedCodesAreRefused :
    (hosted [.command (.op 0x9#32)]).configLegal = true ∧
      (hosted [.command (.op 0x9#32)]).inbox = [.command (.op 0x9#32)] ∧
      9 ≤ (0x9#32).toNat % 16 ∧ 9 ≤ (0xFFFFFFFF#32).toNat % 16 := by decide

theorem test_witness_TransactPerformsOneExchange : (0#8).toNat ≤ 7 ∧ (7#8).toNat ≤ 7 := by decide

theorem test_witness_InvalidChannelSuppressesTheExchange :
    8 ≤ (8#8).toNat ∧ 8 ≤ (255#8).toNat ∧ (7#8).toNat ≤ 7 := by decide

theorem test_witness_CommandFrameIsOneExchange : (7#8).toNat ≤ 7 ∧ 8 ≤ (8#8).toNat := by decide

theorem test_witness_DecodeIgnoresUnusedReplyBits :
    let rx : Frame := ⟨0xFF#8, 0xFF#8, 0xFF#8⟩
    let rx' : Frame := ⟨0x00#8, 0x03#8, 0xFF#8⟩
    rx.b1.extractLsb' 0 2 = rx'.b1.extractLsb' 0 2 ∧ rx.b2 = rx'.b2 ∧ rx ≠ rx' := by decide

theorem test_witness_ReadAnswersValueSentinelOrFailure :
    (7#8).toNat ≤ 7 ∧ 8 ≤ (8#8).toNat := by decide

/-- Each of READ's results stands in some state. -/
theorem test_witness_ReadBitsTellSentinelFromValue :
    (State.deliver State.reset (.read (.value 1023#10))).result = .read (.value 1023#10) ∧
    (State.deliver State.reset (.read .sentinel)).result = .read .sentinel ∧
    (State.deliver State.reset (.read .transactionFailure)).result = .read .transactionFailure := by
  decide

/-- Each result stands in some state. -/
theorem test_witness_PortShowsTheResultsBits :
    (State.deliver State.reset (.encoded (.frame ⟨1#8, 0#8, 0#8⟩))).result =
      .encoded (.frame ⟨1#8, 0#8, 0#8⟩) ∧
    (State.deliver State.reset (.encoded .invalidChannel)).result = .encoded .invalidChannel ∧
    (State.deliver State.reset (.transacted (.ok ⟨1#8, 2#8, 3#8⟩))).result =
      .transacted (.ok ⟨1#8, 2#8, 3#8⟩) ∧
    (State.deliver State.reset (.transacted .invalidChannel)).result = .transacted .invalidChannel ∧
    (State.deliver State.reset (.transacted .transactionFailure)).result =
      .transacted .transactionFailure ∧
    (State.deliver State.reset (.decoded 0#10)).result = .decoded 0#10 ∧
    (State.deliver State.reset (.current 8#4)).result = .current 8#4 ∧
    State.reset.result = .none := by decide

theorem test_witness_AdvanceStrictWrapsAtTheCount :
    (counting .strict 6#4 5#4).inputs.cfgWrapPolicy = .strict ∧
      (counting .strict 6#4 5#4).idx.toNat + 1 ≥ (counting .strict 6#4 5#4).inputs.cfgChannelCount.toNat ∧
      (counting .strict 6#4 4#4).idx.toNat + 1 < (counting .strict 6#4 4#4).inputs.cfgChannelCount.toNat := by
  decide

theorem test_witness_AdvanceQuirkTestsTheOldIndex :
    (counting .referenceQuirk 6#4 6#4).inputs.cfgWrapPolicy = .referenceQuirk ∧
      (counting .referenceQuirk 6#4 6#4).idx.toNat ≥
        (counting .referenceQuirk 6#4 6#4).inputs.cfgChannelCount.toNat ∧
      (counting .referenceQuirk 6#4 5#4).idx.toNat <
        (counting .referenceQuirk 6#4 5#4).inputs.cfgChannelCount.toNat := by decide

/-- Both policies, the smallest and the largest count. -/
theorem test_witness_AdvancesCycleThroughTheChannels :
    (counting .strict 1#4 0#4).configLegal = true ∧
      (counting .referenceQuirk 8#4 0#4).configLegal = true := by decide

theorem test_witness_StepOneReadsTheIndex :
    State.AloneAt State.reset .p1 ∧ State.reset.inputs.stop = false :=
  ⟨⟨rfl, rfl, rfl, rfl⟩, rfl⟩

/-- A value, a failure at channel 7, and the sentinel at index 8. -/
theorem test_witness_StepTwoReadsTheSample :
    (State.AloneAt (atPhase .p2 { bench [reply564] [] with cur := 7#4 }) .p2 ∧
      (bench [reply564] []).busAnswer = reply564 ∧ (7#4).toNat ≤ 7) ∧
    (State.AloneAt (atPhase .p2 (bench [.fail] [])) .p2 ∧ (bench [.fail] []).busAnswer = .fail) ∧
    (State.AloneAt (atPhase .p2 { State.reset with cur := 8#4 }) .p2 ∧ 8 ≤ (8#4).toNat) :=
  ⟨⟨⟨rfl, rfl, rfl, rfl⟩, rfl, by decide⟩, ⟨⟨rfl, rfl, rfl, rfl⟩, rfl⟩,
    ⟨⟨rfl, rfl, rfl, rfl⟩, by decide⟩⟩

/-- A value at index 7, no value, and index 8. -/
theorem test_witness_StepThreeStoresTheValue :
    State.AloneAt (atPhase .p3 { State.reset with valOk := true, cur := 7#4 }) .p3 ∧ (7#4).toNat ≤ 7 ∧
    State.AloneAt (atPhase .p3 { State.reset with valOk := false }) .p3 ∧
    State.AloneAt (atPhase .p3 { State.reset with cur := 8#4 }) .p3 ∧ 8 ≤ (8#4).toNat :=
  ⟨⟨rfl, rfl, rfl, rfl⟩, by decide, ⟨rfl, rfl, rfl, rfl⟩, ⟨rfl, rfl, rfl, rfl⟩, by decide⟩

theorem test_witness_StepFourDelays : State.AloneAt (atPhase .p4 State.reset) .p4 := ⟨rfl, rfl, rfl, rfl⟩

/-- Accepted, failed, and nothing to record. -/
theorem test_witness_StepFiveHandsOverTheRecord :
    State.AloneAt (atPhase .p5 { bench [] [.ok] with valOk := true }) .p5 ∧
    (bench [] [.ok]).sinkAnswer = .ok ∧
    State.AloneAt (atPhase .p5 { bench [] [.fail] with valOk := true }) .p5 ∧
    (bench [] [.fail]).sinkAnswer = .fail ∧
    State.AloneAt (atPhase .p5 { State.reset with valOk := false }) .p5 :=
  ⟨⟨rfl, rfl, rfl, rfl⟩, rfl, ⟨rfl, rfl, rfl, rfl⟩, rfl, ⟨rfl, rfl, rfl, rfl⟩⟩

theorem test_witness_StepSixAdvances : State.AloneAt (atPhase .p6 State.reset) .p6 := ⟨rfl, rfl, rfl, rfl⟩

theorem test_witness_IterateSamplesOneChannel :
    (bench [reply564] [.ok]).runState = .running ∧ (bench [reply564] [.ok]).inputs.stop = false ∧
      (bench [reply564] [.ok]).idx.toNat ≤ 7 ∧ (bench [reply564] [.ok]).busAnswer = reply564 ∧
      State.sinkAnswer
        { bench [reply564] [.ok] with draws := (bench [reply564] [.ok]).draws + 1 } = .ok := by decide

theorem test_witness_IterateEndsAtBusFailure :
    ({ bench [.fail] [] with idx := 7#4 } : State).runState = .running ∧
      ({ bench [.fail] [] with idx := 7#4 } : State).inputs.stop = false ∧
      ({ bench [.fail] [] with idx := 7#4 } : State).idx.toNat ≤ 7 ∧
      State.busAnswer { bench [.fail] [] with idx := 7#4 } = .fail := by decide

theorem test_witness_IterateEndsAtSinkFailure :
    (bench [reply564] [.fail]).runState = .running ∧ (bench [reply564] [.fail]).inputs.stop = false ∧
      (bench [reply564] [.fail]).idx.toNat ≤ 7 ∧ (bench [reply564] [.fail]).busAnswer = reply564 ∧
      State.sinkAnswer
        { bench [reply564] [.fail] with draws := (bench [reply564] [.fail]).draws + 1 } = .fail := by decide

theorem test_witness_IterateAbsorbsInvalidChannel :
    (counting .referenceQuirk 8#4 8#4).runState = .running ∧
      (counting .referenceQuirk 8#4 8#4).inputs.stop = false ∧
      8 ≤ (counting .referenceQuirk 8#4 8#4).idx.toNat := by decide

/-- The reset state with the stop signal raised. -/
def stopping : State := { State.reset with inputs := { State.reset.inputs with stop := true } }

theorem test_witness_IterateHonoursStopAndStopped :
    (stopping.runState = .running ∧ stopping.inputs.stop = true) ∧ failed.runState = .stopped := by decide

theorem test_witness_IterateIsTheBlocksOwnSteps : State.AloneAt (bench [reply564] [.ok]) .p1 :=
  ⟨rfl, rfl, rfl, rfl⟩

/-- Nine iterations under ReferenceQuirk with a count of 8: the ninth visits index 8. -/
theorem test_witness_IterationsRecordTheChannelsInOrder :
    let s : State :=
      { counting .referenceQuirk 8#4 0#4 with
        busScript := List.replicate 9 reply564, sinkScript := List.replicate 9 .ok }
    s.configLegal = true ∧ s.inputs.initBusOk = true ∧ s.inputs.initGpioOk = true ∧
      s.inputs.stop = false ∧ s.busScript = List.replicate 9 reply564 ++ [] ∧
      s.sinkScript = List.replicate 9 .ok ++ [] := by decide

theorem test_witness_StopEntersStopped :
    State.reset.runState = .running ∧ failed.runState = .stopped := by decide

/-- The three ways a session starts. -/
theorem test_witness_ResetStartsAFreshSession :
    ({ State.reset.inputs with initBusOk := false } : Inputs).initBusOk = false ∧
    (({ State.reset.inputs with initGpioOk := false } : Inputs).initBusOk = true ∧
      ({ State.reset.inputs with initGpioOk := false } : Inputs).initGpioOk = false) ∧
    (State.reset.inputs.initBusOk = true ∧ State.reset.inputs.initGpioOk = true) := by decide

/-- By the input in the middle of an iteration, by the operation in Stopped. -/
theorem test_witness_ResetIsHonouredAtAnyMoment :
    (atPhase .p3 (hosted [.reset])).configLegal = true ∧
    (atPhase .p3 (hosted [.reset])).inbox = .reset :: [] ∧
    ({ failed with inbox := [.command (.op 0x8#32)] } : State).configLegal = true ∧
    ({ failed with inbox := [.command (.op 0x8#32)] } : State).inbox = .command (.op 0x8#32) :: [] ∧
    decode (.op 0x8#32) = .ok .reset := by decide

/-- RESET in mid-iteration, STOP in Stopped, ITERATE at the boundary. -/
theorem test_witness_StepRunsTheDecodedInstruction :
    ((atPhase .p5 (hosted [.command (.op 0x8#32)])).configLegal = true ∧
      decode (.op 0x8#32) = .ok .reset) ∧
    (({ failed with inbox := [.command (.op 0x7#32)] } : State).configLegal = true ∧
      ({ failed with inbox := [.command (.op 0x7#32)] } : State).runState = .stopped ∧
      decode (.op 0x7#32) = .ok .stop) ∧
    ((hosted [.command (.op 0x6#32)]).configLegal = true ∧
      (hosted [.command (.op 0x6#32)]).phase = .p1 ∧ decode (.op 0x6#32) = .ok .iterate) := by decide

theorem test_witness_PlacedWordIsWhatRuns :
    State.reset.configLegal = true ∧ decodeTableWord 24 0x01F000 = some (.cmdSe 7#8) ∧
      State.reset.phase = .p1 ∧ failed.runState = .stopped := by decide

theorem test_witness_CommandWaitsForTheBoundary :
    let s := atPhase .p4 (hosted [.command (.op 0x7#32)])
    s.configLegal = true ∧ s.inbox = .command (.op 0x7#32) :: [] ∧ decode (.op 0x7#32) = .ok .stop ∧
      Instr.stop ≠ .reset ∧ s.runState = .running ∧ s.phase ≠ .p1 := by decide

theorem test_witness_IllegalCountHasNoRun :
    (counting .strict 0#4 0#4).inputs.cfgChannelCount.toNat = 0 ∧
      9 ≤ (counting .strict 9#4 0#4).inputs.cfgChannelCount.toNat := by decide

theorem test_witness_HostMovesChangeOnlyTheirInput :
    State.reset.configLegal = true ∧ ∃ t, step { State.reset with inbox := [] } = .next t :=
  ⟨rfl, _, rfl⟩

/-- Entry 7 stored, entry 0 not, entry 8 does not exist. -/
theorem test_witness_HostReadsStoredEntriesOnly :
    (let s : State := { hosted [.readEntry 7] with buf := [(7, 9#10)] }
     s.configLegal = true ∧ s.inbox = .readEntry 7 :: [] ∧ s.buf.read 7 = some 9#10) ∧
    ((hosted [.readEntry 0]).configLegal = true ∧ (hosted [.readEntry 0]).buf.read 0 = none) ∧
    ((hosted [.readEntry 8]).configLegal = true ∧ (hosted [.readEntry 8]).inbox = .readEntry 8 :: []) := by
  decide

/-- A Stopped block alone, and one at which ADVANCE is issued. -/
theorem test_witness_StoppedIsFinalUntilReset :
    (failed.runState = .stopped ∧ failed.resetsNow = false ∧ ∃ t, step failed = .next t) ∧
    (let s : State := { failed with inbox := [.command (.op 0x5#32)] }
     s.runState = .stopped ∧ s.resetsNow = false ∧ ∃ t, step s = .next t) :=
  ⟨⟨rfl, rfl, _, rfl⟩, rfl, rfl, _, rfl⟩

theorem test_witness_SessionModeIsFixed :
    let s := hosted [.setMode .differential]
    s.resetsNow = false ∧ ∃ t, step s = .next t := ⟨rfl, _, rfl⟩

theorem test_witness_LoopExchangesCarryTheSessionMode :
    (∃ t, exec .iterate (bench [reply564] [.ok]) = .next t) ∧
    (let s := atPhase .p2 (bench [reply564] [])
     s.inbox = [] ∧ ∃ t, step s = .next t) := ⟨⟨_, rfl⟩, rfl, _, rfl⟩

theorem test_witness_StopSignalDoesNotTearAnIteration :
    let s := atPhase .p4 State.reset
    s.inbox = [] ∧ s.phase ≠ .p1 ∧ ∃ t, step s = .next t := ⟨rfl, by decide, _, rfl⟩

theorem test_witness_ConfiguredModeIsReadAtResetOnly :
    Instr.iterate ≠ .reset ∧ ∃ t, exec .iterate (bench [reply564] [.ok]) = .next t :=
  ⟨by decide, _, rfl⟩

/-- An operation of each kind. -/
theorem test_witness_OperationsWriteOnlyTheirState :
    (∃ t, exec .iterate State.reset = .next t) ∧
    (∃ t, exec .advance State.reset = .next t) ∧ (∃ t, exec .stop State.reset = .next t) ∧
    (∃ t, exec (.read .singleEnded 8#8) State.reset = .next t) ∧
    (Instr.stop ≠ .iterate ∧ Instr.stop ≠ .reset ∧ Instr.stop ≠ .advance ∧ Instr.advance ≠ .stop) :=
  ⟨⟨_, rfl⟩, ⟨_, rfl⟩, ⟨_, rfl⟩, ⟨_, rfl⟩, by decide⟩

theorem test_witness_OneExchangeAndOneRecordAtMost :
    Instr.iterate ≠ .reset ∧ (Instr.transact .singleEnded 0#8) ≠ .iterate ∧
      ∃ t, exec .iterate (bench [reply564] [.ok]) = .next t := ⟨by decide, by decide, _, rfl⟩

/-- Two replies that differ in the ignored bits only. -/
theorem test_witness_UnusedReplyBitsReachNothing :
    valueOf ⟨0xFF#8, 0xFE#8, 0x34#8⟩ = valueOf ⟨0x00#8, 0x02#8, 0x34#8⟩ ∧
    (∃ t, exec .iterate { State.reset with busScript := [.ok ⟨0xFF#8, 0xFE#8, 0x34#8⟩] } = .next t) ∧
    (∃ t, exec .iterate { State.reset with busScript := [.ok ⟨0x00#8, 0x02#8, 0x34#8⟩] } = .next t) :=
  ⟨by decide, ⟨_, rfl⟩, ⟨_, rfl⟩⟩

/-- In the middle of an iteration, a value read at channel 7 and entry 0 stored before. -/
def midway : State :=
  { counting .strict 8#4 7#4 with
    phase := .p3, cur := 7#4, val := 564#10, valOk := true, buf := [(0, 9#10)]
    events := [.reset, .store 0#4 9#10, .delay, .advance 6#4 7#4,
      .exchange ⟨0x01#8, 0xF0#8, 0x00#8⟩ reply564] }

theorem test_witness_StepKeepsTheRegisterInvariant :
    midway.Inv ∧ ∃ t, step midway = .next t := by
  refine ⟨⟨rfl, rfl, ?_, by decide, by decide, by decide, by decide⟩, _, rfl⟩
  show (7 : Nat) < 8
  decide

theorem test_witness_StepKeepsRegistersAndHistoryAgreed : midway.HistoryInv := by
  refine ⟨by decide, fun i => rfl, by decide, ?_, ?_⟩
  · intro tx r h
    rw [show exchanges midway.events = [(⟨0x01#8, 0xF0#8, 0x00#8⟩, reply564)] from rfl,
      List.mem_singleton] at h
    cases h
    exact ⟨rfl, rfl, rfl⟩
  · intro ch v r h
    rw [show records midway.events = [] from rfl] at h
    exact absurd h List.not_mem_nil

/-- A Stopped state meets both invariants as well. -/
theorem test_witness_InvariantsInStopped :
    failed.Inv ∧ stopCauses failed.events = [failed.stopCause] := by
  refine ⟨⟨rfl, rfl, ?_, by decide, by decide, by decide, by decide⟩, rfl⟩
  show (0 : Nat) < 6
  decide

theorem test_witness_StatusCodesAreTheSpecs :
    StopCause.sinkFailure.code = StopCause.sinkFailure.code ∧
      StopCause.sinkFailure.code ≠ StopCause.transactionFailure.code := by decide

theorem test_witness_RecordTextIsDecimal : (0#4).toNat ≤ 7 ∧ (7#4).toNat ≤ 7 := by decide

end Sys2Proof.Tests
end

section
/-! O17: the bits that READ shows at the command port (R9, R49, R69). -/

namespace Sys2Proof.Machine

/-- A READ result is shown by its own tag and bits, free bits told apart by `resultSeq`. -/
theorem State.portResult_of_result_read {s : State} {r : ReadResult} (h : s.result = .read r) :
    s.portResult = .read r.tag (r.bits s.resultSeq) := by
  simp only [State.portResult, h, OpResult.toPort]

/-- Zero extension to the port's 16 bits keeps a value's number (R9). -/
@[simp] theorem ReadResult.toNat_bits_value (k : Nat) (v : BitVec 10) :
    ((ReadResult.value v).bits k).toNat = v.toNat :=
  BitVec.toNat_setWidth_of_le (by decide)

/-- A value's bits lie below 0x0400 (R9). -/
theorem ReadResult.toNat_bits_value_lt (k : Nat) (v : BitVec 10) :
    ((ReadResult.value v).bits k).toNat < 0x0400 := by
  rw [ReadResult.toNat_bits_value]
  exact v.isLt

/-- A value never shows the sentinel's bits: it is below 0x0400 and they are not (R9, R69). -/
theorem ReadResult.bits_value_ne_sentinel (k : Nat) (v : BitVec 10) :
    (ReadResult.value v).bits k ≠ 0xFFFF#16 := by
  intro h
  have hlt := ReadResult.toNat_bits_value_lt k v
  rw [h] at hlt
  exact absurd hlt (by decide)

end Sys2Proof.Machine

namespace Sys2Proof.Proofs

open Sys2Proof.Machine

/-- Settles O17, by READ's three results: a value's bits are a 10-bit number, too small to be the
sentinel's 0xFFFF, and each result has its own tag. -/
theorem readBitsTellSentinelFromValue : Obligations.ReadBitsTellSentinelFromValue := by
  intro s
  refine ⟨fun v hv => ?value, fun hs => ?sentinel, fun hf => ?failure⟩
  case value =>
    exact ⟨(ReadResult.value v).bits s.resultSeq, State.portResult_of_result_read hv,
      ReadResult.toNat_bits_value _ v, ReadResult.toNat_bits_value_lt _ v,
      ReadResult.bits_value_ne_sentinel _ v⟩
  case sentinel => exact State.portResult_of_result_read hs
  case failure => exact ⟨_, State.portResult_of_result_read hf⟩

end Sys2Proof.Proofs
end

section
/-! O59, O58: the registers agree with the event history (R18, R25, R45, R77, R117). One rule per
operation, each from its own lemma of what it can do; then the block alone, the operations at the
port, and the step. -/

namespace Sys2Proof.Machine

variable {s t : State}

/-! What an exchange may send -/

/-- Shifted left by a nibble, a number has its low nibble clear (R43, R44). -/
theorem selectorByte_lowNibble (mode : Mode) (channel : BitVec 8) :
    selectorByte mode channel &&& 0x0F#8 = 0x00#8 := by
  apply BitVec.eq_of_toNat_eq
  simp only [selectorByte, BitVec.toNat_and, BitVec.toNat_ofNat, Nat.shiftLeft_eq]
  rw [show (0x0F % 2 ^ 8 : Nat) = 2 ^ 4 - 1 from rfl, Nat.and_two_pow_sub_one_eq_mod]
  omega

/-- The frame ENCODE builds is one of the sixteen (R45). -/
theorem buildFrame_isCommand {mode : Mode} {channel : BitVec 8} {tx : Frame}
    (h : buildFrame mode channel = .frame tx) : Frame.isCommand tx := by
  unfold buildFrame at h
  split at h
  · cases h
    exact ⟨rfl, selectorByte_lowNibble mode channel, rfl⟩
  · cases h

/-! The agreement: what it depends on, and what each event makes of it -/

/-- The agreement is about five fields; what changes the others keeps it. -/
theorem State.HistoryInv.congr (h : s.HistoryInv) (hidx : t.idx = s.idx) (hbuf : t.buf = s.buf)
    (hrun : t.runState = s.runState) (hcause : t.stopCause = s.stopCause)
    (hevents : t.events = s.events) : t.HistoryInv where
  indexAgrees := by rw [hidx, hevents, h.indexAgrees]
  bufferAgrees i := by rw [hbuf, hevents, h.bufferAgrees]
  stopsAgree := by rw [hevents, hrun, hcause, h.stopsAgree]
  framesSent := by rw [hevents]; exact h.framesSent
  recordsOfDevice := by rw [hevents]; exact h.recordsOfDevice

theorem deliver_historyInv (h : s.HistoryInv) (r : OpResult) : (s.deliver r).HistoryInv :=
  h.congr rfl rfl rfl rfl rfl

/-- An exchange keeps the agreement when its frame is a command frame. -/
theorem busExchange_historyInv (h : s.HistoryInv) {tx : Frame} (htx : Frame.isCommand tx) :
    (busExchange tx s).2.HistoryInv where
  indexAgrees := by simpa [indexFrom_snoc] using h.indexAgrees
  bufferAgrees i := by simpa [storedFrom_snoc] using h.bufferAgrees i
  stopsAgree := by simpa using h.stopsAgree
  framesSent tx' r hmem := by
    simp only [busExchange_events, exchanges_append, exchanges_cons_exchange, exchanges_nil,
      List.mem_append, List.mem_singleton] at hmem
    rcases hmem with hold | hnew
    · exact h.framesSent tx' r hold
    · cases hnew
      exact htx
  recordsOfDevice := by simpa using h.recordsOfDevice

/-- An append keeps the agreement when its channel is the device's. -/
theorem sinkAppend_historyInv (h : s.HistoryInv) {ch : BitVec 4} (hch : ch.toNat ≤ 7)
    (v : BitVec 10) : (sinkAppend ch v s).2.HistoryInv where
  indexAgrees := by simpa [indexFrom_snoc] using h.indexAgrees
  bufferAgrees i := by simpa [storedFrom_snoc] using h.bufferAgrees i
  stopsAgree := by simpa using h.stopsAgree
  framesSent := by simpa using h.framesSent
  recordsOfDevice ch' v' r hmem := by
    simp only [sinkAppend_events, records_append, records_cons_record, records_nil,
      List.mem_append, List.mem_singleton] at hmem
    rcases hmem with hold | hnew
    · exact h.recordsOfDevice ch' v' r hold
    · cases hnew
      exact hch

/-- The entry into Stopped is the session's one Stop, because a Running block has none yet. -/
theorem stopEntry_historyInv (h : s.HistoryInv) (hrun : s.runState = .running) (c : StopCause) :
    (s.stopEntry c).HistoryInv where
  indexAgrees := by simpa [indexFrom_snoc] using h.indexAgrees
  bufferAgrees i := by simpa [storedFrom_snoc] using h.bufferAgrees i
  stopsAgree := by
    have hnone : stopCauses s.events = [] := by rw [h.stopsAgree, hrun]
    simp [hnone]
  framesSent := by simpa using h.framesSent
  recordsOfDevice := by simpa using h.recordsOfDevice

theorem advance_historyInv (h : s.HistoryInv) : s.advance.HistoryInv where
  indexAgrees := by simp [indexFrom_snoc]
  bufferAgrees i := by simpa [storedFrom_snoc] using h.bufferAgrees i
  stopsAgree := by simpa using h.stopsAgree
  framesSent := by simpa using h.framesSent
  recordsOfDevice := by simpa using h.recordsOfDevice

/-! The six steps -/

theorem stepP1_historyInv (h : s.HistoryInv) : (stepP1 s).HistoryInv :=
  h.congr rfl rfl rfl rfl rfl

theorem stepP2_historyInv (h : s.HistoryInv) (hrun : s.runState = .running) :
    (stepP2 s).HistoryInv := by
  obtain ⟨_, e⟩ | ⟨_, tx, htx, ⟨rx, _, e⟩ | ⟨_, e⟩⟩ := stepP2_cases s <;> rw [e]
  · exact h.congr rfl rfl rfl rfl rfl
  · exact (busExchange_historyInv h (buildFrame_isCommand htx)).congr rfl rfl rfl rfl rfl
  · exact stopEntry_historyInv (busExchange_historyInv h (buildFrame_isCommand htx)) hrun _

/-- The store and its event together: each entry is still what was stored last (R18). -/
theorem stepP3_historyInv (h : s.HistoryInv) : (stepP3 s).HistoryInv := by
  obtain ⟨_, _, e⟩ | ⟨_, e⟩ := stepP3_cases s <;> rw [e]
  · exact
      { indexAgrees := by simpa [indexFrom_snoc] using h.indexAgrees
        bufferAgrees := fun i => by
          simp [storedFrom_snoc, Memory.read_write, h.bufferAgrees, eq_comm]
        stopsAgree := by simpa using h.stopsAgree
        framesSent := by simpa using h.framesSent
        recordsOfDevice := by simpa using h.recordsOfDevice }
  · exact h.congr rfl rfl rfl rfl rfl

theorem stepP4_historyInv (h : s.HistoryInv) : (stepP4 s).HistoryInv where
  indexAgrees := by simpa [stepP4, indexFrom_snoc] using h.indexAgrees
  bufferAgrees i := by simpa [stepP4, storedFrom_snoc] using h.bufferAgrees i
  stopsAgree := by simpa [stepP4] using h.stopsAgree
  framesSent := by simpa [stepP4] using h.framesSent
  recordsOfDevice := by simpa [stepP4] using h.recordsOfDevice

/-- Step 5 hands over a record only with a value, and a value means a channel of the device. -/
theorem stepP5_historyInv (h : s.HistoryInv) (hrun : s.runState = .running)
    (hval : s.valOk = true → s.cur.toNat ≤ 7) : (stepP5 s).HistoryInv := by
  obtain ⟨_, e⟩ | ⟨hv, _, e⟩ | ⟨hv, _, e⟩ := stepP5_cases s <;> rw [e]
  · exact h.congr rfl rfl rfl rfl rfl
  · exact (sinkAppend_historyInv h (hval hv) _).congr rfl rfl rfl rfl rfl
  · exact stopEntry_historyInv (sinkAppend_historyInv h (hval hv) _) hrun _

theorem stepP6_historyInv (h : s.HistoryInv) : (stepP6 s).HistoryInv :=
  (advance_historyInv h).congr rfl rfl rfl rfl rfl

/-! STOP, ITERATE, the block alone, RESET -/

theorem stopLoop_historyInv (h : s.HistoryInv) : s.stopLoop.HistoryInv := by
  obtain ⟨_, e⟩ | ⟨hrun, e⟩ := stopLoop_cases s <;> rw [e]
  · exact h
  · exact stopEntry_historyInv h hrun _

theorem finishIteration_historyInv (h : s.HistoryInv) : (finishIteration s).HistoryInv := by
  obtain ⟨_, e⟩ | ⟨_, e⟩ := finishIteration_cases s <;> rw [e]
  · exact h
  · exact stepP6_historyInv h

/-- After step 2 a value means a channel of the device: the sentinel leaves no value (R83). -/
theorem stepP2_valueMeansChannel (s : State) (hrun : (stepP2 s).runState = .running)
    (hv : (stepP2 s).valOk = true) : (stepP2 s).cur.toNat ≤ 7 := by
  obtain ⟨_, e⟩ | ⟨hc, tx, _, ⟨rx, _, e⟩ | ⟨_, e⟩⟩ := stepP2_cases s <;>
    rw [e] at hrun hv ⊢
  · cases hv
  · exact hc
  · cases hrun

/-- Step 3 leaves the run state and the working registers. -/
theorem stepP3_keeps (s : State) :
    (stepP3 s).runState = s.runState ∧ (stepP3 s).valOk = s.valOk ∧ (stepP3 s).cur = s.cur := by
  obtain ⟨_, _, e⟩ | ⟨_, e⟩ := stepP3_cases s <;> rw [e] <;> exact ⟨rfl, rfl, rfl⟩

theorem continueIteration_historyInv (h : s.HistoryInv)
    (hval : s.runState = .running → s.valOk = true → s.cur.toNat ≤ 7) :
    (continueIteration s).HistoryInv := by
  obtain ⟨_, e⟩ | ⟨hrun, e⟩ := continueIteration_cases s <;> rw [e]
  · exact h
  · obtain ⟨hrun3, hvalOk3, hcur3⟩ := stepP3_keeps s
    have h4 : (stepP4 (stepP3 s)).HistoryInv := stepP4_historyInv (stepP3_historyInv h)
    have hval4 : (stepP4 (stepP3 s)).valOk = true → (stepP4 (stepP3 s)).cur.toNat ≤ 7 := by
      simpa [stepP4, hvalOk3, hcur3] using hval hrun
    exact finishIteration_historyInv (stepP5_historyInv h4 (hrun3.trans hrun) hval4)

theorem iterate_historyInv (h : s.HistoryInv) : s.iterate.HistoryInv := by
  obtain ⟨_, e⟩ | ⟨hrun, _, e⟩ | ⟨hrun, _, e⟩ := iterate_cases s <;> rw [e]
  · exact h
  · exact stopEntry_historyInv h hrun _
  · exact continueIteration_historyInv (stepP2_historyInv (stepP1_historyInv h) hrun)
      (stepP2_valueMeansChannel _)

/-- The block alone keeps the agreement; the invariant of the registers says that step 5 records a
channel of the device. -/
theorem freeRun_historyInv (hinv : s.Inv) (h : s.HistoryInv) : s.freeRun.HistoryInv := by
  obtain ⟨_, e⟩ | ⟨hrun, ⟨_, _, e⟩ | ⟨_, _, e⟩ | ⟨_, e⟩ | ⟨_, e⟩ | ⟨_, e⟩ | ⟨hp, e⟩ | ⟨_, e⟩⟩ :=
    freeRun_cases s <;> rw [e]
  case inl => exact h
  · exact stopEntry_historyInv h hrun _
  · exact stepP1_historyInv h
  · exact stepP2_historyInv h hrun
  · exact stepP3_historyInv h
  · exact stepP4_historyInv h
  · exact stepP5_historyInv h hrun (hinv.valueMeansChannel hrun (by simp [hp]) (by simp [hp]))
  · exact stepP6_historyInv h

/-- The state after reset agrees with its history: no entry, no Stop, the one event Reset (R27). -/
theorem reset_historyInv : State.reset.HistoryInv :=
  ⟨rfl, fun _ => rfl, rfl, fun _ _ h => (nomatch h), fun _ _ _ h => (nomatch h)⟩

/-- RESET agrees with the history it begins, as the state after reset does or with the entry into
Stopped after it (R114, R115), whatever was before. -/
theorem resetBlock_historyInv (s : State) : s.resetBlock.HistoryInv := by
  unfold State.resetBlock
  obtain ⟨_, e⟩ | ⟨_, _, e⟩ | ⟨_, _, e⟩ := startUp_cases
    { s with idx := 0#4, phase := .p1, modeQ := s.inputs.cfgMode, buf := [] } <;> rw [e]
  · exact (stopEntry_historyInv reset_historyInv rfl .busInitFailure).congr rfl rfl rfl rfl rfl
  · exact (stopEntry_historyInv reset_historyInv rfl .gpioInitFailure).congr rfl rfl rfl rfl rfl
  · exact reset_historyInv.congr rfl rfl rfl rfl rfl

/-! The operations at the port -/

theorem transact_historyInv (h : s.HistoryInv) (mode : Mode) (channel : BitVec 8) :
    (transact mode channel s).2.HistoryInv := by
  obtain ⟨_, e⟩ | ⟨_, tx, htx, ⟨rx, _, e⟩ | ⟨_, e⟩⟩ := transact_cases mode channel s <;> rw [e]
  · exact h
  · exact busExchange_historyInv h (buildFrame_isCommand htx)
  · exact busExchange_historyInv h (buildFrame_isCommand htx)

theorem exec_historyInv {i : Instr} (h : s.HistoryInv) (he : exec i s = .next t) :
    t.HistoryInv := by
  cases i <;> cases he <;> apply deliver_historyInv
  case encode | rsp | decode | current => exact h
  case cmdSe | cmdDiff | transact | read => exact transact_historyInv h _ _
  case advance => exact advance_historyInv h
  case iterate => exact iterate_historyInv h
  case stop => exact stopLoop_historyInv h
  case reset => exact resetBlock_historyInv s

end Sys2Proof.Machine

namespace Sys2Proof.Proofs

open Sys2Proof.Machine

/-- Settles O58: nothing stored, nothing stopped, nothing sent. -/
theorem resetStateAgreesWithItsHistory : Obligations.ResetStateAgreesWithItsHistory :=
  reset_historyInv

/-- Settles O59, by what the step was: a step of the block, a reset, a move on the inputs, a read of
the buffer, or an operation at the port. -/
theorem stepKeepsRegistersAndHistoryAgreed : Obligations.StepKeepsRegistersAndHistoryAgreed := by
  intro s t hinv h hstep
  have hrest (rest : List HostMove) : State.HistoryInv { s with inbox := rest } :=
    h.congr rfl rfl rfl rfl rfl
  have hinvRest (rest : List HostMove) : State.Inv { s with inbox := rest } := { hinv with }
  obtain ⟨_, ⟨_, rfl⟩ | ⟨rest, _, rfl⟩ | ⟨rest, _, rfl⟩ | ⟨b, rest, _, rfl⟩ | ⟨m, rest, _, rfl⟩ |
    ⟨b, g, rest, _, rfl⟩ | ⟨i, v, rest, _, _, _, rfl⟩ | ⟨w, i, rest, _, _, _, he⟩ |
    ⟨w, i, rest, _, _, _, rfl⟩⟩ := step_cases hstep
  · exact freeRun_historyInv hinv h
  · exact freeRun_historyInv (hinvRest rest) (hrest rest)
  · exact resetBlock_historyInv _
  · exact h.congr rfl rfl rfl rfl rfl
  · exact h.congr rfl rfl rfl rfl rfl
  · exact h.congr rfl rfl rfl rfl rfl
  · exact deliver_historyInv (hrest rest) _
  · exact exec_historyInv (hrest rest) he
  · exact freeRun_historyInv hinv h

end Sys2Proof.Proofs
end

section
/-! O49: the session's mode (R17). Nothing but RESET writes `mode_q`. -/

namespace Sys2Proof.Machine

variable (s : State)

@[simp] theorem transact_modeQ (mode : Mode) (channel : BitVec 8) :
    (transact mode channel s).2.modeQ = s.modeQ := by
  obtain ⟨_, e⟩ | ⟨_, tx, _, ⟨rx, _, e⟩ | ⟨_, e⟩⟩ := transact_cases mode channel s <;> rw [e] <;> rfl

@[simp] theorem stepP1_modeQ : (stepP1 s).modeQ = s.modeQ := rfl

@[simp] theorem stepP2_modeQ : (stepP2 s).modeQ = s.modeQ := by
  obtain ⟨_, e⟩ | ⟨_, tx, _, ⟨rx, _, e⟩ | ⟨_, e⟩⟩ := stepP2_cases s <;> rw [e] <;> rfl

@[simp] theorem stepP3_modeQ : (stepP3 s).modeQ = s.modeQ := by
  obtain ⟨_, _, e⟩ | ⟨_, e⟩ := stepP3_cases s <;> rw [e]

@[simp] theorem stepP4_modeQ : (stepP4 s).modeQ = s.modeQ := rfl

@[simp] theorem stepP5_modeQ : (stepP5 s).modeQ = s.modeQ := by
  obtain ⟨_, e⟩ | ⟨_, _, e⟩ | ⟨_, _, e⟩ := stepP5_cases s <;> rw [e] <;> rfl

@[simp] theorem stepP6_modeQ : (stepP6 s).modeQ = s.modeQ := rfl

@[simp] theorem stopLoop_modeQ : s.stopLoop.modeQ = s.modeQ := by
  obtain ⟨_, e⟩ | ⟨_, e⟩ := stopLoop_cases s <;> simp [e]

@[simp] theorem finishIteration_modeQ : (finishIteration s).modeQ = s.modeQ := by
  obtain ⟨_, e⟩ | ⟨_, e⟩ := finishIteration_cases s <;> simp [e]

@[simp] theorem continueIteration_modeQ : (continueIteration s).modeQ = s.modeQ := by
  obtain ⟨_, e⟩ | ⟨_, e⟩ := continueIteration_cases s <;> simp [e]

@[simp] theorem iterate_modeQ : s.iterate.modeQ = s.modeQ := by
  obtain ⟨_, e⟩ | ⟨_, _, e⟩ | ⟨_, _, e⟩ := iterate_cases s <;> simp [e]

@[simp] theorem freeRun_modeQ : s.freeRun.modeQ = s.modeQ := by
  obtain ⟨_, e⟩ | ⟨_, ⟨_, _, e⟩ | ⟨_, _, e⟩ | ⟨_, e⟩ | ⟨_, e⟩ | ⟨_, e⟩ | ⟨_, e⟩ | ⟨_, e⟩⟩ :=
    freeRun_cases s <;> simp [e]

variable {s} {t : State}

theorem exec_modeQ {i : Instr} (hi : i ≠ .reset) (he : exec i s = .next t) : t.modeQ = s.modeQ := by
  cases i <;> cases he <;> rw [deliver_modeQ]
  case cmdSe | cmdDiff | transact | read => exact transact_modeQ s _ _
  case advance => exact advance_modeQ s
  case iterate => exact iterate_modeQ s
  case stop => exact stopLoop_modeQ s
  case reset => exact absurd rfl hi

/-- A command that is taken while no reset is next in line is not RESET. -/
theorem ne_reset_of_resetsNow_eq_false {w : PortWord} {i : Instr} {rest : List HostMove}
    (hno : s.resetsNow = false) (hin : s.inbox = .command w :: rest) (hd : decode w = .ok i) :
    i ≠ .reset := by
  rintro rfl
  simp [State.resetsNow, hin, hd, isReset] at hno

end Sys2Proof.Machine

namespace Sys2Proof.Proofs

open Sys2Proof.Machine

/-- Settles O49, by what the step was: the block's own steps and every operation but RESET keep
`mode_q`, and the host's moves write inputs only. -/
theorem sessionModeIsFixed : Obligations.SessionModeIsFixed := by
  intro s t hno hstep
  obtain ⟨_, ⟨_, rfl⟩ | ⟨rest, _, rfl⟩ | ⟨rest, hin, rfl⟩ | ⟨b, rest, _, rfl⟩ | ⟨m, rest, _, rfl⟩ |
    ⟨b, g, rest, _, rfl⟩ | ⟨i, v, rest, _, _, _, rfl⟩ | ⟨w, i, rest, hin, hd, _, he⟩ |
    ⟨w, i, rest, _, _, _, rfl⟩⟩ := step_cases hstep
  · exact freeRun_modeQ s
  · exact freeRun_modeQ _
  · simp [State.resetsNow, hin] at hno
  · rfl
  · rfl
  · rfl
  · rfl
  · exact exec_modeQ (s := { s with inbox := rest }) (ne_reset_of_resetsNow_eq_false hno hin hd) he
  · exact freeRun_modeQ s

end Sys2Proof.Proofs
end

section
/-! O52, O46: what the block does not look at. Of the host's side, the inputs and the moves to come,
the block's own steps and every operation but RESET read the channel count, the wrap policy and, at
the boundary, the stop signal; a change of the rest passes through them unseen (R14, R17, R90). -/

namespace Sys2Proof.Machine

/-- `s` with the host's inputs and moves changed. -/
def State.mapHost (f : Inputs → Inputs) (g : List HostMove → List HostMove) (s : State) : State :=
  { s with inputs := f s.inputs, inbox := g s.inbox }

/-- A change of the inputs that leaves what ADVANCE reads of them (R73, R74). -/
structure KeepsSequence (f : Inputs → Inputs) : Prop where
  count : ∀ x, (f x).cfgChannelCount = x.cfgChannelCount
  policy : ∀ x, (f x).cfgWrapPolicy = x.cfgWrapPolicy

variable (f : Inputs → Inputs) (g : List HostMove → List HostMove) (s : State)

@[simp] theorem mapHost_runState : (s.mapHost f g).runState = s.runState := rfl
@[simp] theorem mapHost_modeQ : (s.mapHost f g).modeQ = s.modeQ := rfl
@[simp] theorem mapHost_phase : (s.mapHost f g).phase = s.phase := rfl
@[simp] theorem mapHost_idx : (s.mapHost f g).idx = s.idx := rfl
@[simp] theorem mapHost_cur : (s.mapHost f g).cur = s.cur := rfl
@[simp] theorem mapHost_valOk : (s.mapHost f g).valOk = s.valOk := rfl
@[simp] theorem mapHost_inputs : (s.mapHost f g).inputs = f s.inputs := rfl
@[simp] theorem mapHost_sinkAnswer : (s.mapHost f g).sinkAnswer = s.sinkAnswer := rfl

/-! What looks at nothing of the host's -/

@[simp] theorem deliver_mapHost (r : OpResult) :
    (s.mapHost f g).deliver r = (s.deliver r).mapHost f g := rfl

@[simp] theorem stopEntry_mapHost (c : StopCause) :
    (s.mapHost f g).stopEntry c = (s.stopEntry c).mapHost f g := rfl

@[simp] theorem transact_mapHost (mode : Mode) (channel : BitVec 8) :
    transact mode channel (s.mapHost f g) =
      ((transact mode channel s).1, (transact mode channel s).2.mapHost f g) := by
  unfold transact
  cases buildFrame mode channel <;> rfl

@[simp] theorem readSample_mapHost (mode : Mode) (channel : BitVec 8) :
    readSample mode channel (s.mapHost f g) =
      ((readSample mode channel s).1, (readSample mode channel s).2.mapHost f g) := by
  simp only [readSample, transact_mapHost]

@[simp] theorem stopLoop_mapHost : (s.mapHost f g).stopLoop = s.stopLoop.mapHost f g := by
  simp only [State.stopLoop, mapHost_runState]
  cases s.runState <;> rfl

@[simp] theorem stepP1_mapHost : stepP1 (s.mapHost f g) = (stepP1 s).mapHost f g := rfl

@[simp] theorem stepP2_mapHost : stepP2 (s.mapHost f g) = (stepP2 s).mapHost f g := by
  simp only [stepP2, mapHost_modeQ, mapHost_cur, readSample_mapHost]
  cases (readSample s.modeQ (channelOfIndex s.cur) s).1 <;> rfl

@[simp] theorem stepP3_mapHost : stepP3 (s.mapHost f g) = (stepP3 s).mapHost f g := by
  by_cases hstore : s.valOk = true ∧ s.cur.toNat < Config.bufEntries
  · simp only [stepP3, mapHost_valOk, mapHost_cur, hstore, and_self, ↓reduceIte]
    rfl
  · simp only [stepP3, mapHost_valOk, mapHost_cur, hstore, ↓reduceIte]
    rfl

@[simp] theorem stepP4_mapHost : stepP4 (s.mapHost f g) = (stepP4 s).mapHost f g := rfl

@[simp] theorem stepP5_mapHost : stepP5 (s.mapHost f g) = (stepP5 s).mapHost f g := by
  cases hv : s.valOk with
  | false =>
    simp only [stepP5, mapHost_valOk, hv, Bool.false_eq_true, ↓reduceIte]
    rfl
  | true =>
    simp only [stepP5, mapHost_valOk, hv, ↓reduceIte, sinkAppend_answer, mapHost_sinkAnswer]
    cases s.sinkAnswer <;> rfl

/-! What looks at the count and the policy -/

variable {f} (hf : KeepsSequence f)
include hf

theorem advance_mapHost : (s.mapHost f g).advance = s.advance.mapHost f g := by
  simp only [State.advance, mapHost_inputs, mapHost_idx, hf.count, hf.policy]
  rfl

theorem stepP6_mapHost : stepP6 (s.mapHost f g) = (stepP6 s).mapHost f g := by
  simp only [stepP6, advance_mapHost g s hf]
  rfl

theorem finishIteration_mapHost :
    finishIteration (s.mapHost f g) = (finishIteration s).mapHost f g := by
  simp only [finishIteration, mapHost_runState, stepP6_mapHost g s hf]
  cases s.runState <;> rfl

theorem continueIteration_mapHost :
    continueIteration (s.mapHost f g) = (continueIteration s).mapHost f g := by
  simp only [continueIteration, mapHost_runState, stepP3_mapHost, stepP4_mapHost, stepP5_mapHost,
    finishIteration_mapHost g _ hf]
  cases s.runState <;> rfl

/-! What looks at the stop signal as well -/

/-- ITERATE reads the stop signal at its one check (R90). -/
theorem iterate_mapHost (hstop : (f s.inputs).stop = s.inputs.stop) :
    (s.mapHost f g).iterate = s.iterate.mapHost f g := by
  simp only [State.iterate, mapHost_runState, mapHost_inputs, hstop, stopLoop_mapHost,
    stepP1_mapHost, stepP2_mapHost, continueIteration_mapHost g _ hf]
  cases s.runState
  · rfl
  · cases s.inputs.stop <;> rfl

/-- The block alone reads the stop signal at the boundary only (R90). -/
theorem freeRun_mapHost (hstop : s.phase = .p1 → (f s.inputs).stop = s.inputs.stop) :
    (s.mapHost f g).freeRun = s.freeRun.mapHost f g := by
  simp only [State.freeRun, mapHost_runState, mapHost_phase, mapHost_inputs, stopLoop_mapHost,
    stepP1_mapHost, stepP2_mapHost, stepP3_mapHost, stepP4_mapHost, stepP5_mapHost,
    stepP6_mapHost g s hf]
  cases s.runState with
  | stopped => rfl
  | running =>
    cases hp : s.phase with
    | p1 =>
      rw [hstop hp]
      cases s.inputs.stop <;> rfl
    | p2 | p3 | p4 | p5 | p6 => rfl

variable {s} {t : State}

/-- Every operation but RESET passes over the change. -/
theorem exec_mapHost {i : Instr} (hi : i ≠ .reset) (hstop : (f s.inputs).stop = s.inputs.stop)
    (he : exec i s = .next t) : exec i (s.mapHost f g) = .next (t.mapHost f g) := by
  cases i <;> cases he
  case encode | rsp | decode | current => rfl
  case cmdSe => simp only [exec, execCmdSe, transact_mapHost, deliver_mapHost]
  case cmdDiff => simp only [exec, execCmdDiff, transact_mapHost, deliver_mapHost]
  case transact => simp only [exec, execTransact, transact_mapHost, deliver_mapHost]
  case read => simp only [exec, execRead, readSample_mapHost, deliver_mapHost]
  case advance => simp only [exec, execAdvance, advance_mapHost g s hf, deliver_mapHost]
  case iterate => simp only [exec, execIterate, iterate_mapHost g s hf hstop, deliver_mapHost]
  case stop => simp only [exec, execStop, stopLoop_mapHost, deliver_mapHost]
  case reset => exact absurd rfl hi

end Sys2Proof.Machine

namespace Sys2Proof.Proofs

open Sys2Proof.Machine

/-- Settles O52: a change of `cfg_mode` alone is one of the changes that pass unseen. -/
theorem configuredModeIsReadAtResetOnly : Obligations.ConfiguredModeIsReadAtResetOnly := by
  intro i s t m hi he
  exact exec_mapHost (f := fun x => { x with cfgMode := m }) id ⟨fun _ => rfl, fun _ => rfl⟩ hi rfl he

end Sys2Proof.Proofs
end

section
/-! O45, O46, O47: the step by the configuration and the host's next move (R14, R18, R118). -/

namespace Sys2Proof.Machine

variable {s : State}

theorem step_of_configLegal_eq_false (h : s.configLegal = false) :
    step s = .refused (.illegalChannelCount s.inputs.cfgChannelCount) := by
  simp [step, controlStep, h]

theorem step_of_inbox_nil (h : s.configLegal = true) (hin : s.inbox = []) :
    step s = .next s.freeRun := by
  simp [step, controlStep, h, hin]

theorem step_of_inbox_cons {m : HostMove} {rest : List HostMove} (h : s.configLegal = true)
    (hin : s.inbox = m :: rest) : step s = serveMove m { s with inbox := rest } s := by
  simp [step, controlStep, h, hin]

/-- The legal configurations' other side: a count of 0, or of 9 and more (U6). -/
theorem configLegal_eq_false_of_count
    (h : s.inputs.cfgChannelCount.toNat = 0 ∨ 9 ≤ s.inputs.cfgChannelCount.toNat) :
    s.configLegal = false := by
  rw [Bool.eq_false_iff, ne_eq, configLegal_iff]
  omega

/-- The block alone does not look at the host's moves. -/
theorem freeRun_setInbox (s : State) (moves : List HostMove) :
    State.freeRun { s with inbox := moves } = { s.freeRun with inbox := moves } :=
  freeRun_mapHost (f := id) (fun _ => moves) s ⟨fun _ => rfl, fun _ => rfl⟩ fun _ => rfl

/-! The host's read port -/

theorem readEntry_stored {i : Nat} {v : BitVec 10} (hi : i ≤ 7) (hv : s.buf.read i = some v) :
    readEntry i s = .next (s.deliver (.entry v)) := by
  have hlt : i < Config.bufEntries := Nat.lt_succ_of_le hi
  simp [readEntry, hlt, hv]

theorem readEntry_empty {i : Nat} (hi : i ≤ 7) (hv : s.buf.read i = none) :
    readEntry i s = .fault (.emptyEntryRead i) := by
  have hlt : i < Config.bufEntries := Nat.lt_succ_of_le hi
  simp [readEntry, hlt, hv]

theorem readEntry_outside {i : Nat} (hi : 8 ≤ i) : readEntry i s = .fault (.noSuchEntry i) :=
  if_neg (Nat.not_lt_of_le hi)

end Sys2Proof.Machine

namespace Sys2Proof.Proofs

open Sys2Proof.Machine

/-- Settles O45: such a count is no legal configuration, and the step looks at that first. -/
theorem illegalCountHasNoRun : Obligations.IllegalCountHasNoRun := fun _ h =>
  step_of_configLegal_eq_false (configLegal_eq_false_of_count h)

/-- Settles O46: each move is served by its own update, and an idle host's step is the block's own,
which the moves to come do not reach. -/
theorem hostMovesChangeOnlyTheirInput : Obligations.HostMovesChangeOnlyTheirInput := by
  intro s rest hc
  have hserve (m : HostMove) : step { s with inbox := m :: rest } =
      serveMove m { s with inbox := rest } { s with inbox := m :: rest } :=
    step_of_inbox_cons (s := { s with inbox := m :: rest }) hc rfl
  refine ⟨fun b => hserve _, fun m => hserve _, fun b g => hserve _, fun t ht => ?idle⟩
  case idle =>
    have halone : step { s with inbox := [] } = .next (State.freeRun { s with inbox := [] }) :=
      step_of_inbox_nil hc rfl
    cases halone.symm.trans ht
    rw [hserve, freeRun_setInbox]
    exact congrArg Host.Outcome.next (freeRun_setInbox s rest)

/-- Settles O47, by the three outcomes of the read port. -/
theorem hostReadsStoredEntriesOnly : Obligations.HostReadsStoredEntriesOnly := by
  intro s i rest hc hin
  rw [step_of_inbox_cons hc hin]
  exact ⟨fun v hi hv => readEntry_stored hi hv, fun hi hv => readEntry_empty hi hv,
    fun hi => readEntry_outside hi⟩

end Sys2Proof.Proofs
end

section
/-! O40, O41, O56: the code numbers, and the state after reset (R12, R14, R19, R27, R75, R94). -/

namespace Sys2Proof.Machine

/-- The cause a code of R94 names; 6 and 7, which are never written (U9), name none. -/
def StopCause.ofCode (code : BitVec 3) : StopCause :=
  match code.toNat with
  | 1 => .stopSignal
  | 2 => .busInitFailure
  | 3 => .gpioInitFailure
  | 4 => .transactionFailure
  | 5 => .sinkFailure
  | _ => .none

theorem StopCause.ofCode_code (c : StopCause) : StopCause.ofCode c.code = c := by
  cases c <;> rfl

/-- No two causes share a code (R94). -/
theorem StopCause.code_injective : Function.Injective StopCause.code :=
  Function.LeftInverse.injective StopCause.ofCode_code

/-- Under Strict the index is bounded by the count alone (R75). -/
theorem State.indexBounded_of_strict {s : State} (hp : s.inputs.cfgWrapPolicy = .strict)
    (h : s.idx.toNat < s.inputs.cfgChannelCount.toNat) : s.indexBounded := by
  unfold State.indexBounded
  rw [hp]
  exact h

end Sys2Proof.Machine

namespace Sys2Proof.Proofs

open Sys2Proof.Machine

/-- Settles O40: the codes are read off, and the causes' codes have a left inverse. -/
theorem statusCodesAreTheSpecs : Obligations.StatusCodesAreTheSpecs :=
  ⟨rfl, rfl, rfl, rfl, rfl, rfl, rfl, rfl, rfl, rfl, rfl, rfl, rfl, rfl, rfl, rfl, rfl, rfl,
    fun _ _ h => StopCause.code_injective h⟩

/-- Settles O41: every value is the field's own. -/
theorem resetStateHasTheSpecsValues : Obligations.ResetStateHasTheSpecsValues :=
  ⟨rfl, rfl, rfl, fun _ => rfl, rfl, rfl, rfl, rfl, rfl, rfl, rfl⟩

/-- Settles O56: index 0 is below the count 6, the block is Running with no cause and stands at the
boundary, where nothing is asked of the working registers. -/
theorem resetStateMeetsTheRegisterInvariant : Obligations.ResetStateMeetsTheRegisterInvariant where
  bufCanonical := State.reset_buf_wf
  configLegal := rfl
  indexBounded := State.indexBounded_of_strict rfl (by decide)
  causeIffStopped := iff_of_true rfl rfl
  curIsIdx _ hp := absurd rfl hp
  valueMeansChannel _ hp := absurd rfl hp
  phaseNamesStep h := by cases h

end Sys2Proof.Proofs
end

section
/-! O1 to O5: decoding and encoding the three binary formats (R7, R43 to R46, R49). A word is
fields set side by side: its number comes from its fields' numbers, and a field is read back by
division and remainder of that number. -/

namespace Sys2Proof

/-- The number of two fields side by side. -/
theorem toNat_append_eq_add {m n : Nat} (x : BitVec m) (y : BitVec n) :
    (x ++ y).toNat = x.toNat * 2 ^ n + y.toNat := by
  rw [BitVec.toNat_append, ← Nat.shiftLeft_add_eq_or_of_lt y.isLt, Nat.shiftLeft_eq]

/-! The three-byte frame (R7) -/

/-- `F = b0 * 65536 + b1 * 256 + b2` (R7). -/
theorem Frame.toNat_toWord (f : Frame) :
    f.toWord.toNat = f.b0.toNat * 65536 + f.b1.toNat * 256 + f.b2.toNat := by
  simp only [Frame.toWord, toNat_append_eq_add]
  omega

@[simp] theorem Frame.ofWord_toWord (f : Frame) : Frame.ofWord f.toWord = f := by
  obtain ⟨b0, b1, b2⟩ := f
  simp only [Frame.ofWord, Frame.mk.injEq, ← BitVec.toNat_inj, BitVec.extractLsb'_toNat,
    Frame.toNat_toWord]
  omega

@[simp] theorem Frame.toWord_ofWord (w : BitVec 24) : (Frame.ofWord w).toWord = w := by
  simp only [Frame.ofWord, Frame.toWord,
    BitVec.extractLsb'_append_extractLsb'_eq_extractLsb', BitVec.extractLsb'_eq_self]

/-! The OP words (R49): code and operands read back -/

@[simp] theorem Mode.ofBit_bit (mode : Mode) : Mode.ofBit mode.bit = mode := by cases mode <;> rfl

@[simp] theorem opMode_opWordModeChannel (op : BitVec 4) (mode : Mode) (channel : BitVec 8) :
    opMode (opWordModeChannel op mode channel) = mode := by
  have hfield : (opWordModeChannel op mode channel).extractLsb' 4 1 = mode.bit := by
    apply BitVec.eq_of_toNat_eq
    simp only [opWordModeChannel, BitVec.extractLsb'_toNat, toNat_append_eq_add]
    omega
  rw [opMode, hfield, Mode.ofBit_bit]

@[simp] theorem opChannel_opWordModeChannel (op : BitVec 4) (mode : Mode) (channel : BitVec 8) :
    opChannel (opWordModeChannel op mode channel) = channel := by
  apply BitVec.eq_of_toNat_eq
  simp only [opChannel, opWordModeChannel, BitVec.extractLsb'_toNat, toNat_append_eq_add]
  omega

@[simp] theorem opFrame_opWordFrame (op : BitVec 4) (rx : Frame) :
    opFrame (opWordFrame op rx) = rx := by
  have hfield : (opWordFrame op rx).extractLsb' 8 24 = rx.toWord := by
    apply BitVec.eq_of_toNat_eq
    simp only [opWordFrame, BitVec.extractLsb'_toNat, toNat_append_eq_add]
    omega
  rw [opFrame, hfield, Frame.ofWord_toWord]

/-- Every OP word ends in its operation code. -/
@[simp] theorem opcode_opWordModeChannel (op : BitVec 4) (mode : Mode) (channel : BitVec 8) :
    (opWordModeChannel op mode channel).extractLsb' 0 4 = op :=
  BitVec.extractLsb'_append_eq_right

@[simp] theorem opcode_opWordFrame (op : BitVec 4) (rx : Frame) :
    (opWordFrame op rx).extractLsb' 0 4 = op :=
  BitVec.extractLsb'_append_eq_right

@[simp] theorem opcode_opWordPlain (op : BitVec 4) : (opWordPlain op).extractLsb' 0 4 = op :=
  BitVec.extractLsb'_append_eq_right

/-! The command frames (R43, R45) -/

/-- The match value of a mode's command frames (R45). -/
def Mode.cmdMatch : Mode → BitVec 24
  | .singleEnded => cmdSeMatch
  | .differential => cmdDiffMatch

/-- The instruction a mode's command frame of a channel is. -/
def Mode.cmdInstr : Mode → BitVec 8 → Instr
  | .singleEnded => .cmdSe
  | .differential => .cmdDiff

/-- What `decodeCmd` answers with, mode by mode: the word under the mask is a mode's match value. -/
theorem decodeCmd_eq_ok_iff (f : BitVec 24) (i : Instr) :
    decodeCmd f = .ok i ↔
      ∃ mode : Mode, f &&& cmdMask = mode.cmdMatch ∧ i = mode.cmdInstr (cmdChannel f) := by
  have hne : cmdSeMatch ≠ cmdDiffMatch := by decide
  constructor
  · intro h
    unfold decodeCmd at h
    split at h
    case isTrue hse =>
      cases h
      exact ⟨.singleEnded, hse, rfl⟩
    case isFalse =>
      split at h
      case isTrue hdiff =>
        cases h
        exact ⟨.differential, hdiff, rfl⟩
      case isFalse => cases h
  · rintro ⟨mode, hmatch, rfl⟩
    cases mode with
    | singleEnded => exact if_pos hmatch
    | differential => exact (if_neg (hmatch.trans_ne hne.symm)).trans (if_pos hmatch)

/-- The mask leaves a command frame's mode and takes its channel, whatever the channel. -/
theorem cmdWord_and_cmdMask (mode : Mode) (channel : BitVec 8) :
    cmdWord mode channel &&& cmdMask = mode.cmdMatch := by
  have hfield : ∀ c : BitVec 3,
      (0x01#8 ++ mode.bit ++ c ++ 0#4 ++ 0x00#8) &&& cmdMask = mode.cmdMatch := by
    cases mode <;> decide
  exact hfield _

@[simp] theorem cmdChannel_cmdWord (mode : Mode) {channel : BitVec 8} (h : channel.toNat ≤ 7) :
    cmdChannel (cmdWord mode channel) = channel := by
  apply BitVec.eq_of_toNat_eq
  simp only [cmdChannel, cmdWord, BitVec.toNat_setWidth, BitVec.extractLsb'_toNat,
    toNat_append_eq_add]
  omega

theorem cmdChannel_le (f : BitVec 24) : (cmdChannel f).toNat ≤ 7 := by
  rw [cmdChannel, BitVec.toNat_setWidth]
  omega

/-- A word that matches is put together from its mode and its channel field: the mask covers all the
other bits. -/
theorem eq_cmdWord_of_match {f : BitVec 24} {mode : Mode} (h : f &&& cmdMask = mode.cmdMatch) :
    f = cmdWord mode (cmdChannel f) := by
  have hsplit : f = f.extractLsb' 15 9 ++ f.extractLsb' 12 3 ++ f.extractLsb' 0 12 := by
    simp only [BitVec.extractLsb'_append_extractLsb'_eq_extractLsb', BitVec.extractLsb'_eq_self]
  have hhigh : f.extractLsb' 15 9 = mode.cmdMatch.extractLsb' 15 9 := by
    rw [← h, BitVec.extractLsb'_and, show cmdMask.extractLsb' 15 9 = BitVec.allOnes 9 by decide,
      BitVec.and_allOnes]
  have hlow : f.extractLsb' 0 12 = mode.cmdMatch.extractLsb' 0 12 := by
    rw [← h, BitVec.extractLsb'_and, show cmdMask.extractLsb' 0 12 = BitVec.allOnes 12 by decide,
      BitVec.and_allOnes]
  have hfield : (cmdChannel f).extractLsb' 0 3 = f.extractLsb' 12 3 := by
    apply BitVec.eq_of_toNat_eq
    simp only [cmdChannel, BitVec.toNat_setWidth, BitVec.extractLsb'_toNat]
    omega
  have hword : ∀ c : BitVec 3,
      mode.cmdMatch.extractLsb' 15 9 ++ c ++ mode.cmdMatch.extractLsb' 0 12 =
        0x01#8 ++ mode.bit ++ c ++ 0#4 ++ 0x00#8 := by
    cases mode <;> decide
  rw [cmdWord, hfield, ← hword, ← hhigh, ← hlow]
  exact hsplit

theorem decodeCmd_cmdWord (mode : Mode) {channel : BitVec 8} (h : channel.toNat ≤ 7) :
    decodeCmd (cmdWord mode channel) = .ok (mode.cmdInstr channel) :=
  (decodeCmd_eq_ok_iff _ _).mpr ⟨mode, cmdWord_and_cmdMask mode channel, by simp [h]⟩

/-- R44's frame in numbers is R43's fields. -/
theorem toWord_commandFrame (mode : Mode) {channel : BitVec 8} (h : channel.toNat ≤ 7) :
    (Machine.commandFrame mode channel).toWord = cmdWord mode channel := by
  apply BitVec.eq_of_toNat_eq
  rw [Frame.toNat_toWord]
  simp only [cmdWord, toNat_append_eq_add, BitVec.extractLsb'_toNat]
  cases mode <;> simp [Machine.commandFrame, Mode.bit] <;> omega

end Sys2Proof

namespace Sys2Proof.Proofs

open Sys2Proof.Machine

/-- Settles O1, row by row: the operation code picks the row and each operand's field is read back. -/
theorem decodeOfEncodeGivesBack : Obligations.DecodeOfEncodeGivesBack := by
  intro i hwf
  cases i with
  | cmdSe channel => exact decodeCmd_cmdWord .singleEnded (of_decide_eq_true hwf)
  | cmdDiff channel => exact decodeCmd_cmdWord .differential (of_decide_eq_true hwf)
  | rsp frame => simp [encode, decode, decodeRsp]
  | encode | transact | decode | read => simp [encode, decode, decodeOp]
  | current | advance | iterate | stop | reset => rfl

/-- Settles O3: a word that decodes is put together from a mode and a channel, and such a word
decodes. -/
theorem commandWordsAreTheSixteenFrames : Obligations.CommandWordsAreTheSixteenFrames := by
  intro f
  constructor
  · rintro ⟨i, hi⟩
    obtain ⟨mode, hmatch, -⟩ := (decodeCmd_eq_ok_iff f i).mp hi
    refine ⟨mode, cmdChannel f, cmdChannel_le f, ?_⟩
    rw [toWord_commandFrame mode (cmdChannel_le f)]
    exact eq_cmdWord_of_match hmatch
  · rintro ⟨mode, channel, h, rfl⟩
    rw [toWord_commandFrame mode h]
    exact ⟨_, decodeCmd_cmdWord mode h⟩

/-- Settles O5: the frame is the word's three bytes. -/
theorem everyReplyWordIsWellFormed : Obligations.EveryReplyWordIsWellFormed := by
  intro f
  refine ⟨Frame.ofWord f, rfl, congrArg PortWord.rsp (Frame.toWord_ofWord f), ?_⟩
  rw [← Frame.toNat_toWord, Frame.toWord_ofWord]

/-- Settles O2: each word is closed, and the decoder runs on it. -/
theorem specWordsDecodeAsWritten : Obligations.SpecWordsDecodeAsWritten :=
  ⟨rfl, rfl, rfl, rfl, rfl, rfl, rfl, rfl, rfl, rfl, rfl, rfl⟩

/-- Settles O4: the frame in numbers is the word of its mode and channel. -/
theorem commandWordNamesModeAndChannel : Obligations.CommandWordNamesModeAndChannel := by
  intro channel h
  rw [toWord_commandFrame .singleEnded h, toWord_commandFrame .differential h]
  exact ⟨decodeCmd_cmdWord .singleEnded h, decodeCmd_cmdWord .differential h⟩

end Sys2Proof.Proofs
end

section
/-! O6, O43: the step with a command at the port (R49, R50, R53, R101). -/

namespace Sys2Proof

/-- Operation codes 0x9 to 0xF are reserved (R49). -/
theorem decodeOp_reserved {w : BitVec 32} (h : 9 ≤ w.toNat % 16) :
    decodeOp w = .error (.reservedOp (BitVec.ofNat 4 w.toNat)) := by
  have hcode : 9 ≤ (w.extractLsb' 0 4).toNat := by simpa using h
  unfold decodeOp
  split
  case h_10 => rfl
  all_goals omega

/-- A table row's bits read as an instruction are a port word that decodes to it. -/
theorem decodeTableWord_eq_some {nbits w : Nat} {i : Instr} (h : decodeTableWord nbits w = some i) :
    ∃ p, tableWord nbits w = some p ∧ decode p = .ok i := by
  unfold decodeTableWord at h
  split at h
  case h_1 p hp =>
    split at h
    case h_1 j hj =>
      cases h
      exact ⟨p, hp, hj⟩
    case h_2 => cases h
  case h_2 => cases h

end Sys2Proof

namespace Sys2Proof.Machine

variable {s : State} {w : PortWord} {rest : List HostMove}

theorem step_of_undecodable {e : DecodeError} (hc : s.configLegal = true)
    (hin : s.inbox = .command w :: rest) (hd : decode w = .error e) :
    step s = .refused (.undecodable e) := by
  rw [step_of_inbox_cons hc hin]
  simp only [serveMove, runCommand, hd]

/-- A command that is taken is run, its word gone from the port. -/
theorem step_of_command_taken {i : Instr} (hc : s.configLegal = true)
    (hin : s.inbox = .command w :: rest) (hd : decode w = .ok i)
    (htaken : (isReset i || s.acceptsCommand) = true) : step s = exec i { s with inbox := rest } := by
  rw [step_of_inbox_cons hc hin]
  simp only [serveMove, runCommand, hd]
  exact if_pos htaken

/-- Where commands are taken, placing one changes nothing but the host's moves. -/
theorem withCommand_of_acceptsCommand (w : PortWord) (h : s.acceptsCommand = true) :
    s.withCommand w = { s with inbox := .command w :: s.inbox } := by
  simp only [State.withCommand, h, if_true]

end Sys2Proof.Machine

namespace Sys2Proof.Proofs

open Sys2Proof.Machine

/-- Settles O6: such a word is no instruction, and the step refuses it with its code. -/
theorem reservedCodesAreRefused : Obligations.ReservedCodesAreRefused := fun _ _ _ hc hin hcode =>
  step_of_undecodable hc hin (decodeOp_reserved hcode)

/-- Settles O43: placing the word changes the host's moves only, and the step takes it. -/
theorem placedWordIsWhatRuns : Obligations.PlacedWordIsWhatRuns := by
  intro s nbits w i hc hrow hat
  obtain ⟨p, hp, hd⟩ := decodeTableWord_eq_some hrow
  have haccepts : s.acceptsCommand = true := (acceptsCommand_iff s).mpr hat
  have hplaced : s.withFetchWord nbits w = { s with inbox := .command p :: s.inbox } := by
    simp only [State.withFetchWord, hp, withCommand_of_acceptsCommand p haccepts]
  rw [hplaced]
  exact step_of_command_taken (s := { s with inbox := .command p :: s.inbox }) hc rfl hd
    (Bool.or_eq_true_iff.mpr (.inr haccepts))

end Sys2Proof.Proofs
end

section
/-! O10, O12, O13, O18: the frames as operations, a reply's value, and the results' bits at the port
(R46, R47, R49, R57, R65). -/

namespace Sys2Proof.Machine

variable {s : State}

/-! The value of a reply (R47, R65) -/

/-- The two masked bits above byte 2, in numbers. -/
theorem toNat_extractValue (rx : Frame) :
    (extractValue rx).toNat = rx.b1.toNat % 4 * 256 + rx.b2.toNat := by
  have hmask : (rx.b1 &&& 0x03#8).toNat = rx.b1.toNat % 4 :=
    Nat.and_two_pow_sub_one_eq_mod rx.b1.toNat 2
  rw [extractValue, ← BitVec.setWidth_append_eq_shiftLeft_setWidth_or, BitVec.toNat_setWidth,
    toNat_append_eq_add, hmask]
  omega

theorem extractValue_eq_valueOf (rx : Frame) : extractValue rx = valueOf rx := by
  apply BitVec.eq_of_toNat_eq
  rw [toNat_extractValue, valueOf, BitVec.toNat_ofNat]
  omega

/-- Byte 0 and the high bits of byte 1 are multiples of 1024. -/
theorem extractValue_eq_low_ten_bits (rx : Frame) :
    extractValue rx = BitVec.ofNat 10
      ((rx.b0.toNat * 65536 + rx.b1.toNat * 256 + rx.b2.toNat) % 1024) := by
  apply BitVec.eq_of_toNat_eq
  rw [toNat_extractValue, BitVec.toNat_ofNat]
  omega

/-! TRANSACT in numbers (R44, R57, R58) -/

/-- The frame ENCODE builds for a channel of the device is R44's. -/
theorem buildFrame_eq_commandFrame (mode : Mode) {channel : BitVec 8} (h : channel.toNat ≤ 7) :
    buildFrame mode channel = .frame (commandFrame mode channel) := by
  have hsel : selectorByte mode channel = (commandFrame mode channel).b1 := by
    apply BitVec.eq_of_toNat_eq
    cases mode <;>
      simp [selectorByte, commandFrame, modeSelector, Config.modeSelSe, Config.modeSelDiff,
        Nat.shiftLeft_eq]
  rw [buildFrame_valid mode channel h, hsel]
  rfl

theorem transact_outside (mode : Mode) {channel : BitVec 8} (h : 8 ≤ channel.toNat) :
    transact mode channel s = (.invalidChannel, s) := by
  simp only [transact, buildFrame_invalid mode channel h]

theorem transact_of_ok (mode : Mode) {channel : BitVec 8} {rx : Frame} (h : channel.toNat ≤ 7)
    (ha : s.busAnswer = .ok rx) :
    transact mode channel s = (.ok rx, (busExchange (commandFrame mode channel) s).2) := by
  simp only [transact, buildFrame_eq_commandFrame mode h, ha]

theorem transact_of_fail (mode : Mode) {channel : BitVec 8} (h : channel.toNat ≤ 7)
    (ha : s.busAnswer = .fail) :
    transact mode channel s =
      (.transactionFailure, (busExchange (commandFrame mode channel) s).2) := by
  simp only [transact, buildFrame_eq_commandFrame mode h, ha]

/-- The port shows the bits of the last result. -/
theorem State.portResult_of_result {r : OpResult} (h : s.result = r) :
    s.portResult = r.toPort s.resultSeq := by
  rw [State.portResult, h]

end Sys2Proof.Machine

namespace Sys2Proof.Proofs

open Sys2Proof.Machine

/-- Settles O12: the value is R47's in numbers. -/
theorem replyFrameAnswersItsValue : Obligations.ReplyFrameAnswersItsValue := by
  intro rx s
  rw [← extractValue_eq_valueOf]
  rfl

/-- Settles O13: the value is the low ten bits of the reply's number. -/
theorem valueIsTheReplysLowTenBits : Obligations.ValueIsTheReplysLowTenBits := by
  intro rx s
  rw [← extractValue_eq_low_ten_bits]
  rfl

/-- Settles O10: both frames are TRANSACT in their own mode, one exchange whose answer is given back,
or nothing at all outside the channel field. -/
theorem commandFrameIsOneExchange : Obligations.CommandFrameIsOneExchange := by
  intro channel s
  refine ⟨fun h => ?device, fun h => ?outside⟩
  case device =>
    cases ha : s.busAnswer with
    | ok rx =>
      simp [exec, execCmdSe, execCmdDiff, transact_of_ok _ h ha, State.deliver, busExchange, ha]
    | fail =>
      simp [exec, execCmdSe, execCmdDiff, transact_of_fail _ h ha, State.deliver, busExchange, ha]
  case outside => simp [exec, execCmdSe, execCmdDiff, transact_outside _ h, State.deliver]

/-- Settles O18: each result shows its own bits; beside a tag that says there is no frame it is some
frame. -/
theorem portShowsTheResultsBits : Obligations.PortShowsTheResultsBits := fun _ =>
  ⟨fun _ h => State.portResult_of_result h, fun h => ⟨_, State.portResult_of_result h⟩,
    fun _ h => State.portResult_of_result h, fun h => ⟨_, State.portResult_of_result h⟩,
    fun h => ⟨_, State.portResult_of_result h⟩, fun _ h => State.portResult_of_result h,
    fun _ h => State.portResult_of_result h, fun h => State.portResult_of_result h⟩

end Sys2Proof.Proofs
end

section
/-! O53: what each operation leaves unchanged (R24, R53). -/

namespace Sys2Proof.Machine

/-- Nothing outside the block is written: the host's inputs and its moves to come, and the answer last
given at the port. -/
structure KeepsOutside (s t : State) : Prop where
  inputs : t.inputs = s.inputs
  inbox : t.inbox = s.inbox
  result : t.result = s.result
  resultSeq : t.resultSeq = s.resultSeq

theorem KeepsOutside.refl (s : State) : KeepsOutside s s := ⟨rfl, rfl, rfl, rfl⟩

theorem KeepsOutside.trans {s t u : State} (h : KeepsOutside s t) (h' : KeepsOutside t u) :
    KeepsOutside s u :=
  ⟨h'.inputs.trans h.inputs, h'.inbox.trans h.inbox, h'.result.trans h.result,
    h'.resultSeq.trans h.resultSeq⟩

variable (s : State)

/-! TRANSACT writes the history and the device's side -/

theorem transact_sameBlock (mode : Mode) (channel : BitVec 8) :
    SameBlock s (transact mode channel s).2 := by
  obtain ⟨_, e⟩ | ⟨_, tx, _, ⟨rx, _, e⟩ | ⟨_, e⟩⟩ := transact_cases mode channel s <;>
    rw [e] <;> exact ⟨rfl, rfl, rfl, rfl, rfl, rfl, rfl, rfl, rfl⟩

@[simp] theorem transact_sinkScript (mode : Mode) (channel : BitVec 8) :
    (transact mode channel s).2.sinkScript = s.sinkScript := by
  obtain ⟨_, e⟩ | ⟨_, tx, _, ⟨rx, _, e⟩ | ⟨_, e⟩⟩ := transact_cases mode channel s <;> rw [e] <;> rfl

theorem transact_keepsOutside (mode : Mode) (channel : BitVec 8) :
    KeepsOutside s (transact mode channel s).2 := by
  obtain ⟨_, e⟩ | ⟨_, tx, _, ⟨rx, _, e⟩ | ⟨_, e⟩⟩ := transact_cases mode channel s <;>
    rw [e] <;> exact ⟨rfl, rfl, rfl, rfl⟩

/-! What lies outside the block -/

theorem stepP2_keepsOutside : KeepsOutside s (stepP2 s) := by
  obtain ⟨_, e⟩ | ⟨_, tx, _, ⟨rx, _, e⟩ | ⟨_, e⟩⟩ := stepP2_cases s <;>
    rw [e] <;> exact ⟨rfl, rfl, rfl, rfl⟩

theorem stepP3_keepsOutside : KeepsOutside s (stepP3 s) := by
  obtain ⟨_, _, e⟩ | ⟨_, e⟩ := stepP3_cases s <;> rw [e] <;> exact ⟨rfl, rfl, rfl, rfl⟩

theorem stepP5_keepsOutside : KeepsOutside s (stepP5 s) := by
  obtain ⟨_, e⟩ | ⟨_, _, e⟩ | ⟨_, _, e⟩ := stepP5_cases s <;> rw [e] <;> exact ⟨rfl, rfl, rfl, rfl⟩

theorem stopLoop_keepsOutside : KeepsOutside s s.stopLoop := by
  obtain ⟨_, e⟩ | ⟨_, e⟩ := stopLoop_cases s <;> rw [e] <;> exact ⟨rfl, rfl, rfl, rfl⟩

theorem finishIteration_keepsOutside : KeepsOutside s (finishIteration s) := by
  obtain ⟨_, e⟩ | ⟨_, e⟩ := finishIteration_cases s <;> rw [e] <;> exact ⟨rfl, rfl, rfl, rfl⟩

theorem continueIteration_keepsOutside : KeepsOutside s (continueIteration s) := by
  obtain ⟨_, e⟩ | ⟨_, e⟩ := continueIteration_cases s <;> rw [e]
  · exact .refl s
  · have h4 : KeepsOutside s (stepP4 (stepP3 s)) :=
      (stepP3_keepsOutside s).trans ⟨rfl, rfl, rfl, rfl⟩
    exact (h4.trans (stepP5_keepsOutside _)).trans (finishIteration_keepsOutside _)

theorem iterate_keepsOutside : KeepsOutside s s.iterate := by
  obtain ⟨_, e⟩ | ⟨_, _, e⟩ | ⟨_, _, e⟩ := iterate_cases s <;> rw [e]
  · exact .refl s
  · exact ⟨rfl, rfl, rfl, rfl⟩
  · have h1 : KeepsOutside s (stepP1 s) := ⟨rfl, rfl, rfl, rfl⟩
    have h2 := h1.trans (stepP2_keepsOutside (stepP1 s))
    exact h2.trans (continueIteration_keepsOutside _)

theorem resetBlock_keepsOutside : KeepsOutside s s.resetBlock := by
  obtain ⟨hinputs, hinbox, -, -, hresult, hseq⟩ := resetBlock_keeps s
  exact ⟨hinputs, hinbox, hresult, hseq⟩

/-! The operations at the port -/

variable {s} {t : State} {i : Instr}

/-- Every operation is a change of the block and then one answer at the port. -/
theorem exec_eq_deliver (he : exec i s = .next t) :
    ∃ u r, t = u.deliver r ∧ KeepsOutside s u := by
  cases i <;> cases he <;> refine ⟨_, _, rfl, ?_⟩
  case encode | rsp | decode | current => exact .refl s
  case cmdSe | cmdDiff | transact | read => exact transact_keepsOutside s _ _
  case advance => exact ⟨rfl, rfl, rfl, rfl⟩
  case iterate => exact iterate_keepsOutside s
  case stop => exact stopLoop_keepsOutside s
  case reset => exact resetBlock_keepsOutside s

theorem SameBlock.refl (s : State) : SameBlock s s := ⟨rfl, rfl, rfl, rfl, rfl, rfl, rfl, rfl, rfl⟩

/-- An operation's answer at the port is none of R12's elements. -/
theorem SameBlock.deliver (h : SameBlock s t) (r : OpResult) : SameBlock s (t.deliver r) :=
  ⟨h.idx, h.runState, h.stopCause, h.modeQ, h.buf, h.phase, h.cur, h.val, h.valOk⟩

/-- What an operation writes of the block: RESET and ITERATE what they will, ADVANCE and STOP their
own update, and the other eight none of R12's elements (R53). -/
theorem exec_block_cases (he : exec i s = .next t) :
    i = .reset ∨ i = .iterate ∨ (i = .advance ∧ t = s.advance.deliver .none) ∨
      (i = .stop ∧ t = s.stopLoop.deliver .none) ∨
      (SameBlock s t ∧ t.sinkScript = s.sinkScript) := by
  cases i <;> cases he
  case reset => exact .inl rfl
  case iterate => exact .inr (.inl rfl)
  case advance => exact .inr (.inr (.inl ⟨rfl, rfl⟩))
  case stop => exact .inr (.inr (.inr (.inl ⟨rfl, rfl⟩)))
  case encode | rsp | decode | current =>
    exact .inr (.inr (.inr (.inr ⟨(SameBlock.refl s).deliver _, rfl⟩)))
  case cmdSe | cmdDiff | transact | read =>
    exact .inr (.inr (.inr (.inr
      ⟨(transact_sameBlock s _ _).deliver _, transact_sinkScript s _ _⟩)))

end Sys2Proof.Machine

namespace Sys2Proof.Proofs

open Sys2Proof.Machine

/-- Settles O53, by what an operation writes of the block. -/
theorem operationsWriteOnlyTheirState : Obligations.OperationsWriteOnlyTheirState := by
  intro i s t he
  obtain ⟨u, r, ht, hout⟩ := exec_eq_deliver he
  refine ⟨ht ▸ hout.inputs, ht ▸ hout.inbox, fun hi => exec_modeQ hi he, ?_⟩
  obtain rfl | rfl | ⟨rfl, rfl⟩ | ⟨rfl, rfl⟩ | ⟨hblock, hsink⟩ := exec_block_cases he
  · simp
  · simp
  · simp
  · obtain ⟨_, e⟩ | ⟨_, e⟩ := stopLoop_cases s <;> simp [e]
  · exact ⟨fun _ _ => ⟨hblock.buf, fun k => congrArg (Memory.read · k) hblock.buf, hblock.phase,
      hblock.cur, hblock.val, hblock.valOk, hsink⟩, fun _ _ _ => hblock.idx,
      fun _ _ _ => ⟨hblock.runState, hblock.stopCause⟩⟩

end Sys2Proof.Proofs
end

section
/-! O34: ITERATE is the block's own steps (R54, R80, R88). From the back: what is left of an iteration
after step 5, after step 2, and at the boundary is reached by the block alone, one step more each
time, whether an error ends it or not. -/

namespace Sys2Proof.Machine

variable {s t u : State} {p : Phase} {n : Nat}

/-- The machine gets from `s` to `t` in at least one and at most `n` of its own steps. -/
def Reaches (n : Nat) (s t : State) : Prop := ∃ k, 1 ≤ k ∧ k ≤ n ∧ core.run k s = .next t

theorem Reaches.mono {m : Nat} (h : Reaches n s t) (hnm : n ≤ m) : Reaches m s t := by
  obtain ⟨k, hk, hkn, hrun⟩ := h
  exact ⟨k, hk, hkn.trans hnm, hrun⟩

/-- The machine's step, where the block runs alone. -/
theorem State.AloneAt.step_eq (h : s.AloneAt p) : core.step s = .next s.freeRun :=
  step_of_inbox_nil h.configLegal h.quiet

theorem State.AloneAt.reaches_one (h : s.AloneAt p) (he : s.freeRun = t) : Reaches 1 s t :=
  ⟨1, le_rfl, le_rfl, run_succ_next core 0 s t (he ▸ h.step_eq)⟩

/-- One step first, then the rest. -/
theorem State.AloneAt.reaches_succ (h : s.AloneAt p) (he : s.freeRun = u) (hrest : Reaches n u t) :
    Reaches (n + 1) s t := by
  obtain ⟨k, hk, hkn, hrun⟩ := hrest
  exact ⟨k + 1, Nat.le_add_left 1 k, Nat.succ_le_succ hkn,
    (run_succ_next core k s u (he ▸ h.step_eq)).trans hrun⟩

/-- A step of the block leaves the configuration and the host quiet; the block runs alone as long as
it is Running. -/
theorem State.AloneAt.of_keepsOutside {q : Phase} (h : s.AloneAt p) (hk : KeepsOutside s t)
    (hrun : t.runState = .running) (hphase : t.phase = q) : t.AloneAt q where
  configLegal := by rw [← h.configLegal, State.configLegal, State.configLegal, hk.inputs]
  quiet := hk.inbox.trans h.quiet
  running := hrun
  phase := hphase

/-- The step a phase names (R19). -/
def Phase.step : Phase → State → State
  | .p1 => stepP1
  | .p2 => stepP2
  | .p3 => stepP3
  | .p4 => stepP4
  | .p5 => stepP5
  | .p6 => stepP6

/-- The block alone takes that step, at the boundary only with the stop signal low (R80, R90). -/
theorem State.AloneAt.freeRun_eq (h : s.AloneAt p) (hstop : p = .p1 → s.inputs.stop = false) :
    s.freeRun = p.step s := by
  simp only [State.freeRun, h.running, h.phase]
  cases p with
  | p1 => simp [hstop rfl, Phase.step]
  | p2 | p3 | p4 | p5 | p6 => rfl

/-! Where each step leaves the block -/

theorem stepP2_phase (h : (stepP2 s).runState = .running) : (stepP2 s).phase = .p3 := by
  obtain ⟨_, e⟩ | ⟨_, tx, _, ⟨rx, _, e⟩ | ⟨_, e⟩⟩ := stepP2_cases s <;> rw [e] at h ⊢
  cases h

theorem stepP3_phase (s : State) : (stepP3 s).phase = .p4 := by
  obtain ⟨_, _, e⟩ | ⟨_, e⟩ := stepP3_cases s <;> rw [e]

theorem stepP5_phase (h : (stepP5 s).runState = .running) : (stepP5 s).phase = .p6 := by
  obtain ⟨_, e⟩ | ⟨_, _, e⟩ | ⟨_, _, e⟩ := stepP5_cases s <;> rw [e] at h ⊢
  cases h

/-! The iteration, from the back -/

theorem reaches_finishIteration (h : s.AloneAt .p5) : Reaches 2 s (finishIteration (stepP5 s)) := by
  have h5 : s.freeRun = stepP5 s := h.freeRun_eq nofun
  obtain ⟨_, e⟩ | ⟨hrun, e⟩ := finishIteration_cases (stepP5 s) <;> rw [e]
  · exact (h.reaches_one h5).mono (by decide)
  · have halone : (stepP5 s).AloneAt .p6 :=
      h.of_keepsOutside (stepP5_keepsOutside s) hrun (stepP5_phase hrun)
    exact h.reaches_succ h5 (halone.reaches_one (halone.freeRun_eq nofun))

theorem reaches_continueIteration (h : s.AloneAt .p2) :
    Reaches 5 s (continueIteration (stepP2 s)) := by
  have h2 : s.freeRun = stepP2 s := h.freeRun_eq nofun
  obtain ⟨_, e⟩ | ⟨hrun, e⟩ := continueIteration_cases (stepP2 s) <;> rw [e]
  · exact (h.reaches_one h2).mono (by decide)
  · obtain ⟨hrun3, -, -⟩ := stepP3_keeps (stepP2 s)
    have halone3 : (stepP2 s).AloneAt .p3 :=
      h.of_keepsOutside (stepP2_keepsOutside s) hrun (stepP2_phase hrun)
    have halone4 : (stepP3 (stepP2 s)).AloneAt .p4 :=
      halone3.of_keepsOutside (stepP3_keepsOutside _) (hrun3.trans hrun) (stepP3_phase _)
    have halone5 : (stepP4 (stepP3 (stepP2 s))).AloneAt .p5 :=
      halone4.of_keepsOutside ⟨rfl, rfl, rfl, rfl⟩ halone4.running rfl
    exact h.reaches_succ h2 (halone3.reaches_succ (halone3.freeRun_eq nofun)
      (halone4.reaches_succ (halone4.freeRun_eq nofun) (reaches_finishIteration halone5)))

theorem reaches_iterate (h : s.AloneAt .p1) : Reaches 6 s s.iterate := by
  obtain ⟨hstopped, e⟩ | ⟨_, hstop, e⟩ | ⟨_, hstop, e⟩ := iterate_cases s <;> rw [e]
  · cases h.running.symm.trans hstopped
  · have h1 : s.freeRun = s.stopEntry .stopSignal := by
      simp [State.freeRun, State.stopLoop, h.running, h.phase, hstop]
    exact (h.reaches_one h1).mono (by decide)
  · have halone : (stepP1 s).AloneAt .p2 :=
      h.of_keepsOutside ⟨rfl, rfl, rfl, rfl⟩ h.running rfl
    exact h.reaches_succ (h.freeRun_eq fun _ => hstop) (reaches_continueIteration halone)

/-! Where an iteration ends -/

theorem continueIteration_ends (s : State) :
    (continueIteration s).phase = .p1 ∨ (continueIteration s).runState = .stopped := by
  obtain ⟨hstopped, e⟩ | ⟨_, e⟩ := continueIteration_cases s <;> rw [e]
  · exact .inr hstopped
  · obtain ⟨hstopped, e⟩ | ⟨_, e⟩ := finishIteration_cases (stepP5 (stepP4 (stepP3 s))) <;> rw [e]
    · exact .inr hstopped
    · exact .inl rfl

theorem iterate_ends (s : State) : s.iterate.phase = .p1 ∨ s.iterate.runState = .stopped := by
  obtain ⟨hstopped, e⟩ | ⟨_, _, e⟩ | ⟨_, _, e⟩ := iterate_cases s <;> rw [e]
  · exact .inr hstopped
  · exact .inr rfl
  · exact continueIteration_ends _

end Sys2Proof.Machine

namespace Sys2Proof.Proofs

open Sys2Proof.Machine

/-- Settles O34: the state reached is ITERATE's own, and ITERATE ends at the boundary or Stopped. -/
theorem iterateIsTheBlocksOwnSteps : Obligations.IterateIsTheBlocksOwnSteps := by
  intro s h
  obtain ⟨k, hk, hk6, hrun⟩ := reaches_iterate h
  refine ⟨k, s.iterate, hk, hk6, hrun, iterate_ends s, ?_⟩
  rw [← (iterate_keepsOutside s).resultSeq]
  rfl

end Sys2Proof.Proofs
end

section
/-! O60: the text of a record (R48). The decimal digits of a number below `10 ^ fuel`, by induction on
the fuel as they are written: the digits of `n / 10`, then the digit of `n % 10`. -/

namespace Sys2Proof.Machine

/-- The number read so far with one more digit read. -/
def appendDigit (n : Nat) (c : Char) : Nat := 10 * n + (c.toNat - 48)

theorem toNat_digitChar {d : Nat} (h : d < 10) : (digitChar d).toNat = 48 + d := by
  have hall : ∀ d < 10, (digitChar d).toNat = 48 + d := by decide
  exact hall d h

theorem decimalFuel_of_lt {n : Nat} (k : Nat) (h : n < 10) :
    decimalFuel (k + 1) n = [digitChar n] := if_pos h

theorem decimalFuel_of_ge {n : Nat} (k : Nat) (h : ¬ n < 10) :
    decimalFuel (k + 1) n = decimalFuel k (n / 10) ++ [digitChar (n % 10)] := if_neg h

variable {k n : Nat}

/-- The quotient has one digit less. -/
theorem div_ten_lt_pow (h : n < 10 ^ (k + 1)) : n / 10 < 10 ^ k :=
  Nat.div_lt_of_lt_mul (by rwa [Nat.mul_comm, ← Nat.pow_succ])

/-- Only decimal digits are written: no sign, nothing after. -/
theorem decimalFuel_isDigit {c : Char} (h : c ∈ decimalFuel k n) : 48 ≤ c.toNat ∧ c.toNat ≤ 57 := by
  induction k generalizing n with
  | zero => cases h
  | succ k ih =>
    by_cases hlt : n < 10
    · rw [decimalFuel_of_lt k hlt, List.mem_singleton] at h
      rw [h, toNat_digitChar hlt]
      omega
    · rw [decimalFuel_of_ge k hlt, List.mem_append, List.mem_singleton] at h
      rcases h with hinit | hlast
      · exact ih hinit
      · rw [hlast, toNat_digitChar (Nat.mod_lt n (by decide))]
        omega

/-- The digits read back as the number. -/
theorem foldl_decimalFuel (h : n < 10 ^ k) : (decimalFuel k n).foldl appendDigit 0 = n := by
  induction k generalizing n with
  | zero =>
    exact (Nat.lt_one_iff.mp h).symm
  | succ k ih =>
    by_cases hlt : n < 10
    · simp [decimalFuel_of_lt k hlt, appendDigit, toNat_digitChar hlt]
    · rw [decimalFuel_of_ge k hlt, List.foldl_append, ih (div_ten_lt_pow h)]
      simp only [List.foldl_cons, List.foldl_nil, appendDigit,
        toNat_digitChar (Nat.mod_lt n (by decide : 10 > 0))]
      omega

/-- A positive number is written with a first digit that is not `0`. -/
theorem decimalFuel_head (hpos : 0 < n) (h : n < 10 ^ k) :
    ∃ c, (decimalFuel k n).head? = some c ∧ c ≠ '0' := by
  induction k generalizing n with
  | zero =>
    rw [Nat.pow_zero] at h
    omega
  | succ k ih =>
    by_cases hlt : n < 10
    · refine ⟨digitChar n, by rw [decimalFuel_of_lt k hlt]; rfl, fun hzero => ?_⟩
      have hcode := toNat_digitChar hlt
      rw [hzero, show ('0' : Char).toNat = 48 by decide] at hcode
      omega
    · obtain ⟨c, hc, hne⟩ := ih (by omega : 0 < n / 10) (div_ten_lt_pow h)
      exact ⟨c, by simp [decimalFuel_of_ge k hlt, hc], hne⟩

theorem length_decimalFuel_le : (decimalFuel k n).length ≤ k := by
  induction k generalizing n with
  | zero => exact le_rfl
  | succ k ih =>
    by_cases hlt : n < 10
    · simp [decimalFuel_of_lt k hlt]
    · simpa [decimalFuel_of_ge k hlt] using ih

theorem length_decimalFuel_pos : 1 ≤ (decimalFuel (k + 1) n).length := by
  by_cases hlt : n < 10
  · simp [decimalFuel_of_lt k hlt]
  · simp [decimalFuel_of_ge k hlt]

/-- No leading zero: a text that begins with `0` is that one digit. -/
theorem decimal_leading_zero (h : n < 10 ^ 4) (hzero : (decimal n).head? = some '0') :
    decimal n = ['0'] := by
  obtain rfl | hpos := Nat.eq_zero_or_pos n
  · rfl
  · obtain ⟨c, hc, hne⟩ := decimalFuel_head hpos h
    exact absurd (Option.some.inj (hc.symm.trans hzero)) hne

/-- The channel is one digit (R48). -/
theorem recordText_eq {ch : BitVec 4} (h : ch.toNat ≤ 7) (v : BitVec 10) :
    recordText ch v = ['A', Char.ofNat (48 + ch.toNat), ':', ' '] ++ decimal v.toNat := by
  have hch : decimal ch.toNat = [digitChar ch.toNat] := decimalFuel_of_lt 3 (by omega)
  rw [recordText, hch]
  rfl

end Sys2Proof.Machine

namespace Sys2Proof.Proofs

open Sys2Proof.Machine

/-- Settles O60: a ten-bit value is below `10 ^ 4`, so its four digits at most are enough. -/
theorem recordTextIsDecimal : Obligations.RecordTextIsDecimal := by
  intro ch v hch
  have hv : v.toNat < 10 ^ 4 := by omega
  have hle : (decimal v.toNat).length ≤ 4 := length_decimalFuel_le
  have hpos : 1 ≤ (decimal v.toNat).length := length_decimalFuel_pos
  have hlen : (recordText ch v).length = 4 + (decimal v.toNat).length := by
    rw [recordText_eq hch, List.length_append]
    rfl
  exact ⟨decimal v.toNat, recordText_eq hch v, fun c hc => decimalFuel_isDigit hc,
    foldl_decimalFuel hv, decimal_leading_zero hv, by omega, by omega⟩

end Sys2Proof.Proofs
end

section
/-! O7, O8, O9: ENCODE and TRANSACT at the command port (R56 to R63), by TRANSACT in numbers. -/

namespace Sys2Proof.Proofs

open Sys2Proof.Machine

/-- Settles O7, on each side of the range check. -/
theorem encodeAnswersFrameOrInvalidChannel : Obligations.EncodeAnswersFrameOrInvalidChannel := by
  intro mode channel s
  by_cases h : channel.toNat ≤ 7
  · simp [exec, execEncode, buildFrame_eq_commandFrame mode h, State.deliver, h]
  · have houtside : 8 ≤ channel.toNat := Nat.lt_of_not_le h
    simp [exec, execEncode, buildFrame_invalid mode channel houtside, State.deliver, h]

/-- Settles O8, by the device's answer. -/
theorem transactPerformsOneExchange : Obligations.TransactPerformsOneExchange := by
  intro mode channel s h
  cases ha : s.busAnswer with
  | ok rx => simp [exec, execTransact, transact_of_ok mode h ha, State.deliver, busExchange, ha]
  | fail => simp [exec, execTransact, transact_of_fail mode h ha, State.deliver, busExchange, ha]

/-- Settles O9: nothing is asked of the device outside its range, and inside it the exchange is O8's,
whose result is the device's answer. -/
theorem invalidChannelSuppressesTheExchange : Obligations.InvalidChannelSuppressesTheExchange := by
  intro mode channel s
  refine ⟨fun h => ?outside, fun h =>
    ⟨_, transactPerformsOneExchange mode channel s h, ?answer, commandFrame mode channel, ?exchange⟩⟩
  case outside => simp [exec, execTransact, transact_outside mode h, State.deliver]
  case answer => cases s.busAnswer <;> simp
  case exchange => simp

end Sys2Proof.Proofs
end

section
/-! O54: what an operation adds to the history (R25, R33, R60). Each step of an iteration has its own
bound on the exchanges and on the records it adds; the bounds of steps taken in a row are summed. -/

namespace Sys2Proof.Machine

/-- From `s` to `t` events are only added, at most `x` exchanges and `r` records among them. -/
def AddsAtMost (x r : Nat) (s t : State) : Prop :=
  ∃ es, t.events = s.events ++ es ∧ (exchanges es).length ≤ x ∧ (records es).length ≤ r

section

variable {s t u : State} {x r x' r' : Nat}

theorem AddsAtMost.of_events_eq (h : t.events = s.events) : AddsAtMost x r s t :=
  ⟨[], by rw [h, List.append_nil], Nat.zero_le x, Nat.zero_le r⟩

/-- One event added. -/
theorem AddsAtMost.of_events_snoc {e : Event} (h : t.events = s.events ++ [e])
    (hx : (exchanges [e]).length ≤ x) (hr : (records [e]).length ≤ r) : AddsAtMost x r s t :=
  ⟨[e], h, hx, hr⟩

theorem AddsAtMost.mono (h : AddsAtMost x r s t) (hx : x ≤ x') (hr : r ≤ r') :
    AddsAtMost x' r' s t := by
  obtain ⟨es, hevents, hexchanges, hrecords⟩ := h
  exact ⟨es, hevents, hexchanges.trans hx, hrecords.trans hr⟩

theorem AddsAtMost.trans (h : AddsAtMost x r s t) (h' : AddsAtMost x' r' t u) :
    AddsAtMost (x + x') (r + r') s u := by
  obtain ⟨es, hevents, hexchanges, hrecords⟩ := h
  obtain ⟨es', hevents', hexchanges', hrecords'⟩ := h'
  refine ⟨es ++ es', by rw [hevents', hevents, List.append_assoc], ?_, ?_⟩
  · rw [exchanges_append, List.length_append]
    exact Nat.add_le_add hexchanges hexchanges'
  · rw [records_append, List.length_append]
    exact Nat.add_le_add hrecords hrecords'

end

variable (s : State)

/-! What each shared operation and each step adds -/

theorem busExchange_addsAtMost (tx : Frame) : AddsAtMost 1 0 s (busExchange tx s).2 :=
  .of_events_snoc rfl le_rfl le_rfl

theorem sinkAppend_addsAtMost (ch : BitVec 4) (v : BitVec 10) :
    AddsAtMost 0 1 s (sinkAppend ch v s).2 := .of_events_snoc rfl le_rfl le_rfl

theorem stopEntry_addsAtMost (c : StopCause) : AddsAtMost 0 0 s (s.stopEntry c) :=
  .of_events_snoc rfl le_rfl le_rfl

theorem advance_addsAtMost : AddsAtMost 0 0 s s.advance := .of_events_snoc rfl le_rfl le_rfl

theorem transact_addsAtMost (mode : Mode) (channel : BitVec 8) :
    AddsAtMost 1 0 s (transact mode channel s).2 := by
  obtain ⟨_, e⟩ | ⟨_, tx, _, ⟨rx, _, e⟩ | ⟨_, e⟩⟩ := transact_cases mode channel s <;> rw [e]
  · exact .of_events_eq rfl
  · exact busExchange_addsAtMost s tx
  · exact busExchange_addsAtMost s tx

theorem stepP2_addsAtMost : AddsAtMost 1 0 s (stepP2 s) := by
  obtain ⟨_, e⟩ | ⟨_, tx, _, ⟨rx, _, e⟩ | ⟨_, e⟩⟩ := stepP2_cases s <;> rw [e]
  · exact .of_events_eq rfl
  · exact busExchange_addsAtMost s tx
  · exact (busExchange_addsAtMost s tx).trans (stopEntry_addsAtMost _ _)

theorem stepP3_addsAtMost : AddsAtMost 0 0 s (stepP3 s) := by
  obtain ⟨_, _, e⟩ | ⟨_, e⟩ := stepP3_cases s <;> rw [e]
  · exact .of_events_snoc rfl le_rfl le_rfl
  · exact .of_events_eq rfl

theorem stepP4_addsAtMost : AddsAtMost 0 0 s (stepP4 s) := .of_events_snoc rfl le_rfl le_rfl

theorem stepP5_addsAtMost : AddsAtMost 0 1 s (stepP5 s) := by
  obtain ⟨_, e⟩ | ⟨_, _, e⟩ | ⟨_, _, e⟩ := stepP5_cases s <;> rw [e]
  · exact .of_events_eq rfl
  · exact sinkAppend_addsAtMost s _ _
  · exact (sinkAppend_addsAtMost s _ _).trans (stopEntry_addsAtMost _ _)

theorem stopLoop_addsAtMost : AddsAtMost 0 0 s s.stopLoop := by
  obtain ⟨_, e⟩ | ⟨_, e⟩ := stopLoop_cases s <;> rw [e]
  · exact .of_events_eq rfl
  · exact stopEntry_addsAtMost s _

/-! The iteration, from the back -/

theorem finishIteration_addsAtMost : AddsAtMost 0 0 s (finishIteration s) := by
  obtain ⟨_, e⟩ | ⟨_, e⟩ := finishIteration_cases s <;> rw [e]
  · exact .of_events_eq rfl
  · exact advance_addsAtMost s

theorem continueIteration_addsAtMost : AddsAtMost 0 1 s (continueIteration s) := by
  obtain ⟨_, e⟩ | ⟨_, e⟩ := continueIteration_cases s <;> rw [e]
  · exact .of_events_eq rfl
  · have h4 : AddsAtMost 0 0 s (stepP4 (stepP3 s)) :=
      (stepP3_addsAtMost s).trans (stepP4_addsAtMost _)
    exact (h4.trans (stepP5_addsAtMost _)).trans (finishIteration_addsAtMost _)

theorem iterate_addsAtMost : AddsAtMost 1 1 s s.iterate := by
  obtain ⟨_, e⟩ | ⟨_, _, e⟩ | ⟨_, _, e⟩ := iterate_cases s <;> rw [e]
  · exact .of_events_eq rfl
  · exact (stopEntry_addsAtMost s _).mono zero_le_one zero_le_one
  · have h2 : AddsAtMost 1 0 s (stepP2 (stepP1 s)) := stepP2_addsAtMost (stepP1 s)
    exact h2.trans (continueIteration_addsAtMost _)

/-! The operations at the port -/

variable {s} {t : State} {i : Instr}

/-- Every operation but RESET and ITERATE adds at most one exchange, and no record. -/
theorem exec_addsAtMost (hreset : i ≠ .reset) (hiterate : i ≠ .iterate) (he : exec i s = .next t) :
    AddsAtMost 1 0 s t := by
  cases i <;> cases he
  case encode | rsp | decode | current =>
    exact .of_events_eq rfl
  case cmdSe | cmdDiff | transact | read => exact transact_addsAtMost s _ _
  case advance => exact (advance_addsAtMost s).mono zero_le_one le_rfl
  case stop => exact (stopLoop_addsAtMost s).mono zero_le_one le_rfl
  case iterate => exact absurd rfl hiterate
  case reset => exact absurd rfl hreset

end Sys2Proof.Machine

namespace Sys2Proof.Proofs

open Sys2Proof.Machine

/-- Settles O54: ITERATE adds what its steps add in a row; for the others no record at most is none. -/
theorem oneExchangeAndOneRecordAtMost : Obligations.OneExchangeAndOneRecordAtMost := by
  intro i s t hreset he
  obtain rfl | hiterate := eq_or_ne i .iterate
  · cases he
    obtain ⟨es, hevents, hexchanges, hrecords⟩ := iterate_addsAtMost s
    exact ⟨es, hevents, hexchanges, hrecords, fun hne => absurd rfl hne⟩
  · obtain ⟨es, hevents, hexchanges, hrecords⟩ := exec_addsAtMost hreset hiterate he
    exact ⟨es, hevents, hexchanges, hrecords.trans zero_le_one,
      fun _ => List.length_eq_zero_iff.mp (Nat.le_zero.mp hrecords)⟩

end Sys2Proof.Proofs
end

section
/-! O11, O14, O15, O16: DECODE and READ at the command port (R65 to R71). A reply's value is two fields
of it set side by side, and no other bit of the reply is in either. -/

namespace Sys2Proof.Machine

variable {s : State}

/-- The two low bits of byte 1 above byte 2 (R47). -/
theorem extractValue_eq_append (rx : Frame) :
    extractValue rx = rx.b1.extractLsb' 0 2 ++ rx.b2 := by
  apply BitVec.eq_of_toNat_eq
  rw [toNat_extractValue, toNat_append_eq_add, BitVec.extractLsb'_toNat, Nat.shiftRight_zero]
  rfl

/-- R71: a value cut into the two fields of a frame that carries it. -/
theorem extractValue_carrier (v : BitVec 10) (x : Byte) (y : BitVec 6) :
    extractValue ⟨x, y ++ v.extractLsb' 8 2, v.extractLsb' 0 8⟩ = v := by
  apply BitVec.eq_of_toNat_eq
  rw [toNat_extractValue]
  simp only [toNat_append_eq_add, BitVec.extractLsb'_toNat, Nat.shiftRight_eq_div_pow]
  omega

/-- DECODE is its answer at the port and nothing else (R65, R68). -/
theorem exec_decode (rx : Frame) (s : State) :
    exec (.decode rx) s = .next (s.deliver (.decoded (extractValue rx))) := rfl

/-! READ in numbers (R69) -/

theorem readSample_outside (mode : Mode) {channel : BitVec 8} (h : 8 ≤ channel.toNat) :
    readSample mode channel s = (.sentinel, s) := by
  simp only [readSample, transact_outside mode h]

theorem readSample_of_ok (mode : Mode) {channel : BitVec 8} {rx : Frame} (h : channel.toNat ≤ 7)
    (ha : s.busAnswer = .ok rx) :
    readSample mode channel s =
      (.value (valueOf rx), (busExchange (commandFrame mode channel) s).2) := by
  simp only [readSample, transact_of_ok mode h ha, extractValue_eq_valueOf]

theorem readSample_of_fail (mode : Mode) {channel : BitVec 8} (h : channel.toNat ≤ 7)
    (ha : s.busAnswer = .fail) :
    readSample mode channel s =
      (.transactionFailure, (busExchange (commandFrame mode channel) s).2) := by
  simp only [readSample, transact_of_fail mode h ha]

end Sys2Proof.Machine

namespace Sys2Proof.Proofs

open Sys2Proof.Machine

/-- Settles O11: the answer is R47's value in numbers. -/
theorem decodeExtractsTheTenBits : Obligations.DecodeExtractsTheTenBits := by
  intro rx s
  rw [exec_decode, extractValue_eq_valueOf]
  rfl

/-- Settles O14: the two fields of the value are all that DECODE reads. -/
theorem decodeIgnoresUnusedReplyBits : Obligations.DecodeIgnoresUnusedReplyBits := by
  intro rx rx' s hlow hbyte2
  rw [exec_decode, exec_decode, extractValue_eq_append, extractValue_eq_append, hlow, hbyte2]

/-- Settles O15, by the value of a frame that carries one. -/
theorem carriedValueDecodesBack : Obligations.CarriedValueDecodesBack := by
  intro v x y s
  rw [exec_decode, extractValue_carrier]
  rfl

/-- Settles O16, on each side of the range check and by the device's answer. -/
theorem readAnswersValueSentinelOrFailure : Obligations.ReadAnswersValueSentinelOrFailure := by
  intro mode channel s
  refine ⟨fun h => ?device, fun h => ?outside⟩
  case device =>
    cases ha : s.busAnswer with
    | ok rx => simp [exec, execRead, readSample_of_ok mode h ha, State.deliver, busExchange, ha]
    | fail => simp [exec, execRead, readSample_of_fail mode h ha, State.deliver, busExchange, ha]
  case outside => simp [exec, execRead, readSample_outside mode h, State.deliver]

end Sys2Proof.Proofs
end

section
/-! O55: what of a reply reaches the block (R66, R88). Two states that differ in the device's answers
to come and in a history of the same records stay so through every step of an iteration, step 2
included when the two replies carry one value. -/

namespace Sys2Proof.Machine

/-- `s` with another history and other answers of the device to come. -/
def State.setBus (evs : List Event) (answers : List BusResult) (s : State) : State :=
  { s with events := evs, busScript := answers }

/-- `t` is `s` but for the device's answers to come and the history, whose records are the same. -/
def SameButBus (s t : State) : Prop :=
  ∃ evs answers, t = s.setBus evs answers ∧ records evs = records s.events

section

variable (evs : List Event) (answers : List BusResult) (s : State)

@[simp] theorem setBus_modeQ : (s.setBus evs answers).modeQ = s.modeQ := rfl
@[simp] theorem setBus_cur : (s.setBus evs answers).cur = s.cur := rfl
@[simp] theorem setBus_val : (s.setBus evs answers).val = s.val := rfl
@[simp] theorem setBus_valOk : (s.setBus evs answers).valOk = s.valOk := rfl
@[simp] theorem setBus_events : (s.setBus evs answers).events = evs := rfl
@[simp] theorem setBus_sinkAnswer : (s.setBus evs answers).sinkAnswer = s.sinkAnswer := rfl

end

variable {s t : State} {rx rx' : Frame}

theorem SameButBus.sameBlock (h : SameButBus s t) : SameBlock s t := by
  obtain ⟨evs, answers, rfl, -⟩ := h
  exact ⟨rfl, rfl, rfl, rfl, rfl, rfl, rfl, rfl, rfl⟩

theorem SameButBus.inputs (h : SameButBus s t) : t.inputs = s.inputs := by
  obtain ⟨evs, answers, rfl, -⟩ := h
  rfl

theorem SameButBus.records_eq (h : SameButBus s t) : records t.events = records s.events := by
  obtain ⟨evs, answers, rfl, hrecords⟩ := h
  exact hrecords

/-! What each shared operation and each step keeps -/

theorem deliver_sameButBus (h : SameButBus s t) (r : OpResult) :
    SameButBus (s.deliver r) (t.deliver r) := by
  obtain ⟨evs, answers, rfl, hrecords⟩ := h
  exact ⟨evs, answers, rfl, hrecords⟩

theorem stopEntry_sameButBus (h : SameButBus s t) (c : StopCause) :
    SameButBus (s.stopEntry c) (t.stopEntry c) := by
  obtain ⟨evs, answers, rfl, hrecords⟩ := h
  exact ⟨evs ++ [.stop c], answers, rfl, by simp [hrecords]⟩

theorem setPhase_sameButBus (h : SameButBus s t) (p : Phase) :
    SameButBus { s with phase := p } { t with phase := p } := by
  obtain ⟨evs, answers, rfl, hrecords⟩ := h
  exact ⟨evs, answers, rfl, hrecords⟩

theorem stopLoop_sameButBus (h : SameButBus s t) : SameButBus s.stopLoop t.stopLoop := by
  simp only [State.stopLoop, h.sameBlock.runState]
  cases s.runState with
  | stopped => exact h
  | running => exact stopEntry_sameButBus h .stopSignal

theorem sinkAppend_sameButBus (h : SameButBus s t) (ch : BitVec 4) (v : BitVec 10) :
    SameButBus (sinkAppend ch v s).2 (sinkAppend ch v t).2 := by
  obtain ⟨evs, answers, rfl, hrecords⟩ := h
  exact ⟨evs ++ [.record ch v s.sinkAnswer], answers, rfl, by simp [hrecords]⟩

theorem stepP1_sameButBus (h : SameButBus s t) : SameButBus (stepP1 s) (stepP1 t) := by
  obtain ⟨evs, answers, rfl, hrecords⟩ := h
  exact ⟨evs, answers, rfl, hrecords⟩

/-- The one step that reads a reply, and of it the value alone. -/
theorem stepP2_sameButBus (h : SameButBus s t) (hs : s.busAnswer = .ok rx)
    (ht : t.busAnswer = .ok rx') (hvalue : valueOf rx = valueOf rx') :
    SameButBus (stepP2 s) (stepP2 t) := by
  obtain ⟨evs, answers, rfl, hrecords⟩ := h
  by_cases hcur : (channelOfIndex s.cur).toNat ≤ 7
  · simp only [stepP2, setBus_modeQ, setBus_cur, readSample_of_ok _ hcur hs,
      readSample_of_ok _ hcur ht, hvalue]
    exact ⟨_, _, rfl, by simp [hrecords]⟩
  · simp only [stepP2, setBus_modeQ, setBus_cur, readSample_outside _ (Nat.lt_of_not_le hcur)]
    exact ⟨evs, answers, rfl, hrecords⟩

theorem stepP3_sameButBus (h : SameButBus s t) : SameButBus (stepP3 s) (stepP3 t) := by
  obtain ⟨evs, answers, rfl, hrecords⟩ := h
  by_cases hstore : s.valOk = true ∧ s.cur.toNat < Config.bufEntries
  · simp only [stepP3, setBus_valOk, setBus_cur, hstore, and_self, ↓reduceIte]
    exact ⟨evs ++ [.store s.cur s.val], answers, rfl, by simp [hrecords]⟩
  · simp only [stepP3, setBus_valOk, setBus_cur, hstore, ↓reduceIte]
    exact ⟨evs, answers, rfl, hrecords⟩

theorem stepP4_sameButBus (h : SameButBus s t) : SameButBus (stepP4 s) (stepP4 t) := by
  obtain ⟨evs, answers, rfl, hrecords⟩ := h
  exact ⟨evs ++ [.delay], answers, rfl, by simp [stepP4, hrecords]⟩

theorem stepP5_sameButBus (h : SameButBus s t) : SameButBus (stepP5 s) (stepP5 t) := by
  have happended := sinkAppend_sameButBus h s.cur s.val
  obtain ⟨evs, answers, rfl, hrecords⟩ := h
  cases hvalOk : s.valOk with
  | false =>
    simp only [stepP5, setBus_valOk, hvalOk, Bool.false_eq_true, ↓reduceIte]
    exact ⟨evs, answers, rfl, hrecords⟩
  | true =>
    simp only [stepP5, setBus_valOk, setBus_cur, setBus_val, hvalOk, ↓reduceIte, sinkAppend_answer,
      setBus_sinkAnswer]
    cases s.sinkAnswer with
    | ok => exact setPhase_sameButBus happended .p6
    | fail => exact stopEntry_sameButBus happended .sinkFailure

theorem stepP6_sameButBus (h : SameButBus s t) : SameButBus (stepP6 s) (stepP6 t) := by
  obtain ⟨evs, answers, rfl, hrecords⟩ := h
  exact ⟨_, answers, rfl, by simp [stepP6, hrecords]⟩

/-! The iteration, from the back -/

theorem finishIteration_sameButBus (h : SameButBus s t) :
    SameButBus (finishIteration s) (finishIteration t) := by
  simp only [finishIteration, h.sameBlock.runState]
  cases s.runState with
  | stopped => exact h
  | running => exact stepP6_sameButBus h

theorem continueIteration_sameButBus (h : SameButBus s t) :
    SameButBus (continueIteration s) (continueIteration t) := by
  simp only [continueIteration, h.sameBlock.runState]
  cases s.runState with
  | stopped => exact h
  | running =>
    have h4 := stepP4_sameButBus (stepP3_sameButBus h)
    exact finishIteration_sameButBus (stepP5_sameButBus h4)

theorem iterate_sameButBus (h : SameButBus s t) (hs : s.busAnswer = .ok rx)
    (ht : t.busAnswer = .ok rx') (hvalue : valueOf rx = valueOf rx') :
    SameButBus s.iterate t.iterate := by
  simp only [State.iterate, h.sameBlock.runState, h.inputs]
  cases s.runState with
  | stopped => exact h
  | running =>
    cases s.inputs.stop with
    | true => exact stopLoop_sameButBus h
    | false =>
      exact continueIteration_sameButBus (stepP2_sameButBus (stepP1_sameButBus h) hs ht hvalue)

end Sys2Proof.Machine

namespace Sys2Proof.Proofs

open Sys2Proof.Machine

/-- Settles O55: the two start alike but for the device's answers, and ITERATE keeps them so. -/
theorem unusedReplyBitsReachNothing : Obligations.UnusedReplyBitsReachNothing := by
  intro s t t' rx rx' rest hvalue he he'
  cases he
  cases he'
  have hstart : SameButBus { s with busScript := .ok rx :: rest }
      { s with busScript := .ok rx' :: rest } := ⟨s.events, .ok rx' :: rest, rfl, rfl⟩
  have hend := deliver_sameButBus (iterate_sameButBus hstart rfl rfl hvalue) .none
  exact ⟨hend.sameBlock, hend.records_eq⟩

end Sys2Proof.Proofs
end

section
/-! O19 to O22, O57: the channel sequencer, and the invariant of the registers (R13, R16, R18, R20,
R72 to R76, R83, R103). Both policies are one counter modulo a period, the count under Strict and one
more under ReferenceQuirk (R75, R76). -/

namespace Sys2Proof.Machine

/-- How many values the index goes through before it is 0 again (R76). -/
def WrapPolicy.period : WrapPolicy → Nat → Nat
  | .strict, count => count
  | .referenceQuirk, count => count + 1

variable {s t : State} {i : Instr}

/-! The counter -/

theorem channelAt_eq_mod (policy : WrapPolicy) (count k : Nat) :
    channelAt policy count k = k % policy.period count := by
  cases policy <;> rfl

theorem State.indexBounded_iff (s : State) : s.indexBounded ↔
    s.idx.toNat < s.inputs.cfgWrapPolicy.period s.inputs.cfgChannelCount.toNat := by
  unfold State.indexBounded
  cases s.inputs.cfgWrapPolicy with
  | strict => exact Iff.rfl
  | referenceQuirk => exact Nat.lt_succ_iff.symm

/-- A legal count leaves the index at least the value 0 (R14). -/
theorem period_pos (h : s.configLegal = true) :
    0 < s.inputs.cfgWrapPolicy.period s.inputs.cfgChannelCount.toNat := by
  obtain ⟨hcount, -⟩ := (configLegal_iff s).mp h
  cases s.inputs.cfgWrapPolicy with
  | strict => exact hcount
  | referenceQuirk => exact Nat.succ_pos _

/-- Below a 4-bit bound the increment does not overflow. -/
theorem toNat_add_one_of_lt {idx count : BitVec 4} (h : idx.toNat < count.toNat) :
    (idx + 1#4).toNat = idx.toNat + 1 :=
  BitVec.toNat_add_of_lt (lt_of_le_of_lt h count.isLt)

/-- ADVANCE in numbers: up by one, and back to 0 at the period (R73, R74). -/
theorem nextIndex_toNat (policy : WrapPolicy) (count idx : BitVec 4) :
    (nextIndex policy count idx).toNat =
      if policy.period count.toNat ≤ idx.toNat + 1 then 0 else idx.toNat + 1 := by
  cases policy with
  | strict =>
    by_cases hwrap : count.toNat ≤ idx.toNat + 1
    · simp [nextIndex, WrapPolicy.period, hwrap]
    · have hlt : idx.toNat < count.toNat := by omega
      simp [nextIndex, WrapPolicy.period, hwrap, toNat_add_one_of_lt hlt]
  | referenceQuirk =>
    by_cases hwrap : count.toNat ≤ idx.toNat
    · simp [nextIndex, WrapPolicy.period, hwrap]
    · simp [nextIndex, WrapPolicy.period, hwrap, toNat_add_one_of_lt (Nat.lt_of_not_le hwrap)]

/-- Counting on by one modulo `n`. -/
theorem add_one_mod_eq_ite (k : Nat) {n : Nat} (hn : 0 < n) :
    (k + 1) % n = if n ≤ k % n + 1 then 0 else k % n + 1 := by
  have hlt : k % n < n := Nat.mod_lt k hn
  rw [← Nat.mod_add_mod]
  split
  · next hwrap => rw [show k % n + 1 = n by omega, Nat.mod_self]
  · next hwrap => exact Nat.mod_eq_of_lt (Nat.lt_of_not_le hwrap)

/-- ADVANCE moves to the next channel of the sequence (R76). -/
theorem advance_idx_eq_channelAt (hc : s.configLegal = true) {j : Nat} (hj : s.idx.toNat =
      channelAt s.inputs.cfgWrapPolicy s.inputs.cfgChannelCount.toNat j) :
    s.advance.idx.toNat =
      channelAt s.inputs.cfgWrapPolicy s.inputs.cfgChannelCount.toNat (j + 1) := by
  rw [channelAt_eq_mod] at hj ⊢
  rw [advance_idx, nextIndex_toNat, hj, add_one_mod_eq_ite j (period_pos hc)]

/-! The two operations at the port -/

theorem exec_current (s : State) : exec .current s = .next (s.deliver (.current s.idx)) := rfl

theorem exec_advance (s : State) : exec .advance s = .next (s.advance.deliver .none) := rfl

/-- `k` ADVANCEs move `k` places along the sequence, under inputs that stay (R76). -/
theorem runOps_advances (k : Nat) (is : List Instr) {j : Nat} (hc : s.configLegal = true)
    (hj : s.idx.toNat = channelAt s.inputs.cfgWrapPolicy s.inputs.cfgChannelCount.toNat j) :
    ∃ t, runOps (List.replicate k .advance ++ is) s = runOps is t ∧
      t.idx.toNat =
        channelAt s.inputs.cfgWrapPolicy s.inputs.cfgChannelCount.toNat (j + k) := by
  induction k generalizing s j with
  | zero => exact ⟨s, rfl, hj⟩
  | succ k ih =>
    obtain ⟨t, hrun, hidx⟩ :=
      ih (s := s.advance.deliver .none) hc (advance_idx_eq_channelAt hc hj)
    refine ⟨t, hrun, hidx.trans ?_⟩
    rw [Nat.succ_add_eq_add_succ]
    rfl

/-! The invariant: what it depends on -/

/-- What leaves the nine elements and the inputs keeps the invariant. -/
theorem State.Inv.of_sameBlock (h : s.Inv) (hb : SameBlock s t) (hin : t.inputs = s.inputs) :
    t.Inv where
  bufCanonical := hb.buf ▸ h.bufCanonical
  configLegal := by rw [State.configLegal, hin]; exact h.configLegal
  indexBounded := by
    rw [State.indexBounded_iff, hb.idx, hin]
    exact s.indexBounded_iff.mp h.indexBounded
  causeIffStopped := by rw [hb.stopCause, hb.runState, h.causeIffStopped]
  curIsIdx := by rw [hb.runState, hb.phase, hb.cur, hb.idx]; exact h.curIsIdx
  valueMeansChannel := by rw [hb.runState, hb.phase, hb.valOk, hb.cur]; exact h.valueMeansChannel
  phaseNamesStep := by rw [hb.runState, hb.stopCause, hb.phase]; exact h.phaseNamesStep

theorem deliver_inv (h : s.Inv) (r : OpResult) : (s.deliver r).Inv := { h with }

theorem busExchange_inv (h : s.Inv) (tx : Frame) : (busExchange tx s).2.Inv := { h with }

theorem sinkAppend_inv (h : s.Inv) (ch : BitVec 4) (v : BitVec 10) : (sinkAppend ch v s).2.Inv :=
  { h with }

/-- What is asked of a Stopped block is asked of no Running one. -/
theorem ne_stopped_of_running (hrun : s.runState = .running) : s.runState ≠ .stopped :=
  hrun ▸ nofun

/-- Where commands are taken, a Running block stands at the boundary (R101). -/
theorem phase_eq_p1_of_acceptsCommand (hat : s.acceptsCommand = true)
    (hrun : s.runState = .running) : s.phase = .p1 :=
  ((acceptsCommand_iff s).mp hat).resolve_left (ne_stopped_of_running hrun)

/-- The entry into Stopped, from the step that its cause names (R103). -/
theorem stopEntry_inv (h : s.Inv) {c : StopCause} (hc : c.phase = some s.phase) :
    (s.stopEntry c).Inv :=
  { h with
    causeIffStopped := iff_of_false (by rintro rfl; cases hc) nofun
    curIsIdx := nofun
    valueMeansChannel := nofun
    phaseNamesStep := fun _ => hc }

/-- After step 2 the step pointer alone may move: the working registers agree already. -/
theorem setPhase_inv (h : s.Inv) (hrun : s.runState = .running) (hp1 : s.phase ≠ .p1)
    (hp2 : s.phase ≠ .p2) (q : Phase) : State.Inv { s with phase := q } :=
  { h with
    curIsIdx := fun _ _ => h.curIsIdx hrun hp1
    valueMeansChannel := fun _ _ _ => h.valueMeansChannel hrun hp1 hp2
    phaseNamesStep := fun hstopped => absurd hstopped (ne_stopped_of_running hrun) }

/-- At the boundary ADVANCE keeps the invariant: the new index is below the period, and no iteration
holds the old one (R75, R77). -/
theorem advance_inv (h : s.Inv) (hat : s.acceptsCommand = true) : s.advance.Inv :=
  { h with
    indexBounded := by
      have hpos := period_pos h.configLegal
      rw [State.indexBounded_iff, advance_idx, nextIndex_toNat, advance_inputs]
      split <;> omega
    curIsIdx := fun hrun hp => absurd (phase_eq_p1_of_acceptsCommand hat hrun) hp }

/-- At the boundary the working registers are free (R20). -/
theorem openWork_inv (h : s.Inv) (hat : s.acceptsCommand = true) : s.openWork.Inv :=
  { h with
    curIsIdx := fun hrun hp => absurd (phase_eq_p1_of_acceptsCommand hat hrun) hp
    valueMeansChannel := fun hrun hp => absurd (phase_eq_p1_of_acceptsCommand hat hrun) hp }

/-! The six steps -/

theorem stepP1_inv (h : s.Inv) (hrun : s.runState = .running) : (stepP1 s).Inv :=
  { h with
    curIsIdx := fun _ _ => rfl
    valueMeansChannel := fun _ _ hp2 => absurd rfl hp2
    phaseNamesStep := fun hstopped => absurd hstopped (ne_stopped_of_running hrun) }

/-- Step 2 keeps `cur`, and leaves a value only from a channel of the device (R82, R83). -/
theorem stepP2_inv (h : s.Inv) (hrun : s.runState = .running) (hp : s.phase = .p2) :
    (stepP2 s).Inv := by
  have hcur : s.cur = s.idx := h.curIsIdx hrun (by simp [hp])
  have hphase : s.runState = .stopped → s.stopCause.phase = some .p3 :=
    fun hstopped => absurd hstopped (ne_stopped_of_running hrun)
  obtain ⟨_, e⟩ | ⟨hc, tx, _, ⟨rx, _, e⟩ | ⟨_, e⟩⟩ := stepP2_cases s <;> rw [e]
  · exact { h with
      curIsIdx := fun _ _ => hcur, valueMeansChannel := nofun, phaseNamesStep := hphase }
  · exact { h with
      curIsIdx := fun _ _ => hcur, valueMeansChannel := fun _ _ _ _ => hc, phaseNamesStep := hphase }
  · exact stopEntry_inv (busExchange_inv h tx) (congrArg some hp.symm)

/-- Step 3 stores at an index of the buffer only (R18). -/
theorem stepP3_inv (h : s.Inv) (hrun : s.runState = .running) (hp : s.phase = .p3) :
    (stepP3 s).Inv := by
  have hmoved := setPhase_inv h hrun (by simp [hp]) (by simp [hp]) .p4
  obtain ⟨_, hc, e⟩ | ⟨_, e⟩ := stepP3_cases s <;> rw [e]
  · exact { hmoved with
      bufCanonical := Memory.write_wf s.buf _ s.val (Nat.lt_succ_of_le hc) h.bufCanonical }
  · exact hmoved

theorem stepP4_inv (h : s.Inv) (hrun : s.runState = .running) (hp : s.phase = .p4) :
    (stepP4 s).Inv :=
  { setPhase_inv h hrun (by simp [hp]) (by simp [hp]) .p5 with }

theorem stepP5_inv (h : s.Inv) (hrun : s.runState = .running) (hp : s.phase = .p5) :
    (stepP5 s).Inv := by
  have hmoved := setPhase_inv h hrun (by simp [hp]) (by simp [hp]) .p6
  obtain ⟨_, e⟩ | ⟨_, _, e⟩ | ⟨_, _, e⟩ := stepP5_cases s <;> rw [e]
  · exact hmoved
  · exact { hmoved with }
  · exact stopEntry_inv (sinkAppend_inv h _ _) (congrArg some hp.symm)

/-- Step 6 is a move to the boundary and ADVANCE there (R86). -/
theorem stepP6_inv (h : s.Inv) (hrun : s.runState = .running) (hp : s.phase = .p6) :
    (stepP6 s).Inv := by
  have hmoved := setPhase_inv h hrun (by simp [hp]) (by simp [hp]) .p1
  have hat : State.acceptsCommand { s with phase := .p1 } = true :=
    (acceptsCommand_iff _).mpr (.inr rfl)
  exact openWork_inv (advance_inv hmoved hat) hat

/-! STOP, ITERATE, the block alone, RESET -/

theorem stopLoop_inv (h : s.Inv) (hat : s.acceptsCommand = true) : s.stopLoop.Inv := by
  obtain ⟨_, e⟩ | ⟨hrun, e⟩ := stopLoop_cases s <;> rw [e]
  · exact h
  · exact stopEntry_inv h (congrArg some (phase_eq_p1_of_acceptsCommand hat hrun).symm)

theorem finishIteration_inv (h : s.Inv) (hp : s.runState = .running → s.phase = .p6) :
    (finishIteration s).Inv := by
  obtain ⟨_, e⟩ | ⟨hrun, e⟩ := finishIteration_cases s <;> rw [e]
  · exact h
  · exact stepP6_inv h hrun (hp hrun)

theorem continueIteration_inv (h : s.Inv) (hp : s.runState = .running → s.phase = .p3) :
    (continueIteration s).Inv := by
  obtain ⟨_, e⟩ | ⟨hrun, e⟩ := continueIteration_cases s <;> rw [e]
  · exact h
  · obtain ⟨hrun3, -, -⟩ := stepP3_keeps s
    have hrun4 : (stepP3 s).runState = .running := hrun3.trans hrun
    have h4 : (stepP4 (stepP3 s)).Inv :=
      stepP4_inv (stepP3_inv h hrun (hp hrun)) hrun4 (stepP3_phase s)
    exact finishIteration_inv (stepP5_inv h4 hrun4 rfl) stepP5_phase

theorem iterate_inv (h : s.Inv) (hat : s.acceptsCommand = true) : s.iterate.Inv := by
  obtain ⟨_, e⟩ | ⟨hrun, _, e⟩ | ⟨hrun, _, e⟩ := iterate_cases s <;> rw [e]
  · exact h
  · exact stopEntry_inv h (congrArg some (phase_eq_p1_of_acceptsCommand hat hrun).symm)
  · exact continueIteration_inv (stepP2_inv (stepP1_inv h hrun) hrun rfl) stepP2_phase

theorem freeRun_inv (h : s.Inv) : s.freeRun.Inv := by
  obtain ⟨_, e⟩ | ⟨hrun, ⟨hp, _, e⟩ | ⟨_, _, e⟩ | ⟨hp, e⟩ | ⟨hp, e⟩ | ⟨hp, e⟩ | ⟨hp, e⟩ | ⟨hp, e⟩⟩ :=
    freeRun_cases s <;> rw [e]
  case inl => exact h
  · exact stopEntry_inv h (congrArg some hp.symm)
  · exact stepP1_inv h hrun
  · exact stepP2_inv h hrun hp
  · exact stepP3_inv h hrun hp
  · exact stepP4_inv h hrun hp
  · exact stepP5_inv h hrun hp
  · exact stepP6_inv h hrun hp

/-- Running at the boundary with index 0 and an empty buffer, under any legal configuration. -/
theorem inv_of_start (hc : s.configLegal = true) (hidx : s.idx = 0#4) (hphase : s.phase = .p1)
    (hbuf : s.buf = []) (hrun : s.runState = .running) (hcause : s.stopCause = .none) : s.Inv where
  bufCanonical := hbuf ▸ Memory.nil_wf
  configLegal := hc
  indexBounded := by
    rw [State.indexBounded_iff, hidx]
    exact period_pos hc
  causeIffStopped := iff_of_true hcause hrun
  curIsIdx _ hp := absurd hphase hp
  valueMeansChannel _ hp := absurd hphase hp
  phaseNamesStep hstopped := absurd hstopped (ne_stopped_of_running hrun)

/-- RESET starts at the boundary, or enters Stopped from there by a failed start, whatever was before
but the configuration (R113 to R115). -/
theorem resetBlock_inv (hc : s.configLegal = true) : s.resetBlock.Inv := by
  have hstart : State.Inv
      { s with
        idx := 0#4, phase := .p1, modeQ := s.inputs.cfgMode, buf := [], runState := .running
        stopCause := .none, events := [.reset] } := inv_of_start hc rfl rfl rfl rfl rfl
  unfold State.resetBlock
  obtain ⟨_, e⟩ | ⟨_, _, e⟩ | ⟨_, _, e⟩ := startUp_cases
    { s with idx := 0#4, phase := .p1, modeQ := s.inputs.cfgMode, buf := [] } <;> rw [e]
  · exact openWork_inv (stopEntry_inv hstart (c := .busInitFailure) rfl) rfl
  · exact openWork_inv (stopEntry_inv hstart (c := .gpioInitFailure) rfl) rfl
  · exact openWork_inv hstart rfl

/-- RESET leaves the index at 0, the start of the sequence. -/
theorem resetBlock_idx (s : State) : s.resetBlock.idx = 0#4 := by
  unfold State.resetBlock
  obtain ⟨_, e⟩ | ⟨_, _, e⟩ | ⟨_, _, e⟩ := startUp_cases
    { s with idx := 0#4, phase := .p1, modeQ := s.inputs.cfgMode, buf := [] } <;> rw [e] <;> rfl

/-! The operations at the port -/

/-- RESET keeps the invariant from anywhere, every other operation where it is taken. -/
theorem exec_inv (h : s.Inv) (hat : i ≠ .reset → s.acceptsCommand = true)
    (he : exec i s = .next t) : t.Inv := by
  obtain rfl | rfl | ⟨rfl, rfl⟩ | ⟨rfl, rfl⟩ | ⟨hblock, _⟩ := exec_block_cases he
  · cases he
    exact deliver_inv (resetBlock_inv h.configLegal) _
  · cases he
    exact deliver_inv (iterate_inv h (hat nofun)) _
  · exact deliver_inv (advance_inv h (hat nofun)) _
  · exact deliver_inv (stopLoop_inv h (hat nofun)) _
  · obtain ⟨u, r, rfl, hout⟩ := exec_eq_deliver he
    exact h.of_sameBlock hblock hout.inputs

end Sys2Proof.Machine

namespace Sys2Proof.Proofs

open Sys2Proof.Machine

/-- Settles O57, by what the step was: a step of the block from the phase it stands at, a reset, a move
on the inputs that leaves the count and the policy, a read of the buffer, or an operation at the port,
which is taken at the boundary or when Stopped unless it is RESET. -/
theorem stepKeepsTheRegisterInvariant : Obligations.StepKeepsTheRegisterInvariant := by
  intro s t h hstep
  have hrest (rest : List HostMove) : State.Inv { s with inbox := rest } := { h with }
  obtain ⟨hc, ⟨_, rfl⟩ | ⟨rest, _, rfl⟩ | ⟨rest, _, rfl⟩ | ⟨b, rest, _, rfl⟩ | ⟨m, rest, _, rfl⟩ |
    ⟨b, g, rest, _, rfl⟩ | ⟨i, v, rest, _, _, _, rfl⟩ | ⟨w, i, rest, _, _, htaken, he⟩ |
    ⟨w, i, rest, _, _, _, rfl⟩⟩ := step_cases hstep
  · exact freeRun_inv h
  · exact freeRun_inv (hrest rest)
  · exact resetBlock_inv hc
  · exact { h with }
  · exact { h with }
  · exact { h with }
  · exact deliver_inv (hrest rest) _
  · have hat (hi : i ≠ .reset) : s.acceptsCommand = true :=
      (Bool.or_eq_true_iff.mp htaken).resolve_left (hi ∘ (isReset_iff i).mp)
    exact exec_inv (hrest rest) hat he
  · exact freeRun_inv h

/-- Settles O20: under Strict the period is the count. -/
theorem advanceStrictWrapsAtTheCount : Obligations.AdvanceStrictWrapsAtTheCount := by
  intro s hpolicy
  refine ⟨s.advance.idx, exec_advance s, ?_⟩
  rw [advance_idx, nextIndex_toNat, hpolicy]
  rfl

/-- Settles O21: under ReferenceQuirk the period is one more than the count, so the incremented value
reaches it when the old value has reached the count. -/
theorem advanceQuirkTestsTheOldIndex : Obligations.AdvanceQuirkTestsTheOldIndex := by
  intro s hpolicy
  refine ⟨s.advance.idx, exec_advance s, ?_⟩
  rw [advance_idx, nextIndex_toNat, hpolicy]
  simp only [WrapPolicy.period, Nat.add_le_add_iff_right, ge_iff_le]

/-- Settles O22: RESET stands at the sequence's start, each ADVANCE is one place along it. -/
theorem advancesCycleThroughTheChannels : Obligations.AdvancesCycleThroughTheChannels := by
  intro s k hc
  obtain ⟨hinputs, -⟩ := resetBlock_keeps s
  have hlegal : (s.resetBlock.deliver .none).configLegal = true :=
    (deliver_inv (resetBlock_inv hc) _).configLegal
  have hstart : (s.resetBlock.deliver .none).idx.toNat = channelAt
      s.resetBlock.inputs.cfgWrapPolicy s.resetBlock.inputs.cfgChannelCount.toNat 0 := by
    rw [deliver_idx, resetBlock_idx, channelAt_eq_mod, Nat.zero_mod]
    rfl
  obtain ⟨t, hrun, hidx⟩ := runOps_advances k [.current] hlegal hstart
  refine ⟨_, t.idx, hrun, rfl, ?_⟩
  rw [hidx, deliver_inputs, hinputs, Nat.zero_add]
  rfl

/-- Settles O19: `idx` is delivered, and nothing else of the state is touched. -/
theorem currentAnswersTheIndex : Obligations.CurrentAnswersTheIndex := exec_current

end Sys2Proof.Proofs
end

section
/-! O23 to O28: the block alone, step by step (R81 to R86). Each step's outcome by what it depends on,
in the numbers of R44, R47, R73 and R74. -/

namespace Sys2Proof.Machine

variable {s : State} {p : Phase}

/-- One step of the machine, where the block runs alone, is the step its phase names. -/
theorem State.AloneAt.step_phase (h : s.AloneAt p) (hstop : p = .p1 → s.inputs.stop = false) :
    step s = .next (p.step s) := by
  rw [← h.freeRun_eq hstop]
  exact h.step_eq

/-! Step 2 -/

/-- Step 2 with a reply: the value it carries. -/
theorem stepP2_of_ok {rx : Frame} (h : s.cur.toNat ≤ 7) (ha : s.busAnswer = .ok rx) :
    stepP2 s =
      { s with
        val := valueOf rx, valOk := true, phase := .p3
        events := s.events ++ [.exchange (commandFrame s.modeQ (channelOfIndex s.cur)) (.ok rx)]
        busScript := s.busScript.tail, draws := s.draws + 1 } := by
  simp only [stepP2, readSample_of_ok s.modeQ ((channelOfIndex_toNat s.cur).trans_le h) ha,
    busExchange, ha]

/-- Step 2 with a failed exchange: fatal. -/
theorem stepP2_of_fail (h : s.cur.toNat ≤ 7) (ha : s.busAnswer = .fail) :
    stepP2 s =
      { s with
        runState := .stopped, stopCause := .transactionFailure
        events := s.events ++ [.exchange (commandFrame s.modeQ (channelOfIndex s.cur)) .fail,
          .stop .transactionFailure]
        busScript := s.busScript.tail, draws := s.draws + 1 } := by
  simp only [stepP2, readSample_of_fail s.modeQ ((channelOfIndex_toNat s.cur).trans_le h) ha,
    State.stopEntry, busExchange, ha, List.append_assoc, List.cons_append, List.nil_append]

/-- Step 2 outside the device's channels: the device is not asked. -/
theorem stepP2_outside (h : 8 ≤ s.cur.toNat) :
    stepP2 s =
      { s with
        val := Config.openVal s.draws, valOk := false, draws := s.draws + 1, phase := .p3 } := by
  simp only [stepP2, readSample_outside s.modeQ (h.trans_eq (channelOfIndex_toNat s.cur).symm)]

/-! Step 3 -/

theorem stepP3_of_value (hv : s.valOk = true) (h : s.cur.toNat ≤ 7) :
    stepP3 s =
      { s with
        buf := s.buf.write s.cur.toNat s.val, phase := .p4
        events := s.events ++ [.store s.cur s.val] } := by
  obtain ⟨_, _, e⟩ | ⟨hno, _⟩ := stepP3_cases s
  · exact e
  · exact absurd ⟨hv, h⟩ hno

theorem stepP3_of_nothing (h : ¬ (s.valOk = true ∧ s.cur.toNat ≤ 7)) :
    stepP3 s = { s with phase := .p4 } := by
  obtain ⟨hv, hc, _⟩ | ⟨_, e⟩ := stepP3_cases s
  · exact absurd ⟨hv, hc⟩ h
  · exact e

/-! Step 5 -/

theorem stepP5_of_ok (hv : s.valOk = true) (ha : s.sinkAnswer = .ok) :
    stepP5 s =
      { s with
        phase := .p6, events := s.events ++ [.record s.cur s.val .ok]
        sinkScript := s.sinkScript.tail, draws := s.draws + 1 } := by
  simp only [stepP5, hv, ↓reduceIte, sinkAppend, ha]

theorem stepP5_of_fail (hv : s.valOk = true) (ha : s.sinkAnswer = .fail) :
    stepP5 s =
      { s with
        runState := .stopped, stopCause := .sinkFailure
        events := s.events ++ [.record s.cur s.val .fail, .stop .sinkFailure]
        sinkScript := s.sinkScript.tail, draws := s.draws + 1 } := by
  simp only [stepP5, hv, ↓reduceIte, sinkAppend, ha, State.stopEntry, List.append_assoc,
    List.cons_append, List.nil_append]

theorem stepP5_of_nothing (hv : s.valOk = false) : stepP5 s = { s with phase := .p6 } := by
  simp only [stepP5, hv, Bool.false_eq_true, ↓reduceIte]

/-! Step 6 -/

/-- ADVANCE's index is R73's and R74's. -/
theorem nextIndex_eq_advancedIndex (policy : WrapPolicy) (count idx : BitVec 4) :
    nextIndex policy count idx = advancedIndex policy count.toNat idx.toNat := by
  have hnext : BitVec.ofNat 4 (idx.toNat + 1) = idx + 1#4 := by
    rw [BitVec.ofNat_add, BitVec.ofNat_toNat, BitVec.setWidth_eq]
  cases policy <;>
    simp only [nextIndex, advancedIndex, apply_ite (BitVec.ofNat 4), hnext]

end Sys2Proof.Machine

namespace Sys2Proof.Proofs

open Sys2Proof.Machine

/-- Settles O23: with the signal low the block takes step 1. -/
theorem stepOneReadsTheIndex : Obligations.StepOneReadsTheIndex := fun _ h hstop =>
  h.step_phase fun _ => hstop

/-- Settles O24, by the range check and the device's answer. -/
theorem stepTwoReadsTheSample : Obligations.StepTwoReadsTheSample := by
  intro s h
  rw [h.step_phase nofun, Phase.step]
  exact ⟨fun rx hc ha => congrArg Host.Outcome.next (stepP2_of_ok hc ha),
    fun hc ha => congrArg Host.Outcome.next (stepP2_of_fail hc ha),
    fun hc => ⟨_, _, congrArg Host.Outcome.next (stepP2_outside hc)⟩⟩

/-- Settles O25: a store needs a value and an entry to store it at. -/
theorem stepThreeStoresTheValue : Obligations.StepThreeStoresTheValue := by
  intro s h
  rw [h.step_phase nofun, Phase.step]
  refine ⟨fun hv hc => ?stored, fun hv => ?noValue, fun hc => ?noEntry⟩
  case stored =>
    exact ⟨_, congrArg Host.Outcome.next (stepP3_of_value hv hc),
      fun k => Memory.read_write s.buf s.cur.toNat k s.val⟩
  case noValue => rw [stepP3_of_nothing (by simp [hv])]
  case noEntry => rw [stepP3_of_nothing fun hstore => absurd hstore.2 (Nat.not_le_of_lt hc)]

/-- Settles O26: step 4 is its own event. -/
theorem stepFourDelays : Obligations.StepFourDelays := fun _ h => h.step_phase nofun

/-- Settles O27, by whether there is a value and by the sink's answer. -/
theorem stepFiveHandsOverTheRecord : Obligations.StepFiveHandsOverTheRecord := by
  intro s h
  rw [h.step_phase nofun, Phase.step]
  exact ⟨fun hv ha => congrArg Host.Outcome.next (stepP5_of_ok hv ha),
    fun hv ha => congrArg Host.Outcome.next (stepP5_of_fail hv ha),
    fun hv => congrArg Host.Outcome.next (stepP5_of_nothing hv)⟩

/-- Settles O28: ADVANCE, the boundary, and the working registers open. -/
theorem stepSixAdvances : Obligations.StepSixAdvances := fun s h =>
  ⟨_, _, _, _, _, h.step_phase nofun, nextIndex_eq_advancedIndex _ _ s.idx⟩

end Sys2Proof.Proofs
end

section
/-! O33, O36, O48: STOP, and Stopped (R89, R90, R93, R105). -/

namespace Sys2Proof.Machine

variable {s t u : State} {i : Instr}

theorem exec_iterate (s : State) : exec .iterate s = .next (s.iterate.deliver .none) := rfl

theorem exec_stop (s : State) : exec .stop s = .next (s.stopLoop.deliver .none) := rfl

theorem stopLoop_of_running (h : s.runState = .running) :
    s.stopLoop = s.stopEntry .stopSignal := by
  simp only [State.stopLoop, h]

theorem stopLoop_of_stopped (h : s.runState = .stopped) : s.stopLoop = s := by
  simp only [State.stopLoop, h]

theorem iterate_of_stop (h : s.runState = .running) (hstop : s.inputs.stop = true) :
    s.iterate = s.stopEntry .stopSignal := by
  simp only [State.iterate, h, hstop, ↓reduceIte, stopLoop_of_running h]

theorem iterate_of_stopped (h : s.runState = .stopped) : s.iterate = s := by
  simp only [State.iterate, h]

theorem freeRun_of_stopped (h : s.runState = .stopped) : s.freeRun = s := by
  simp only [State.freeRun, h]

/-- `t` is Stopped as `s` was: the cause, the mode, the buffer and the phase stay, and the history
shows no further record or Stop. -/
structure StaysStopped (s t : State) : Prop where
  runState : t.runState = .stopped
  stopCause : t.stopCause = s.stopCause
  modeQ : t.modeQ = s.modeQ
  buf : t.buf = s.buf
  phase : t.phase = s.phase
  records : records t.events = records s.events
  stops : stopCauses t.events = stopCauses s.events

theorem StaysStopped.refl (h : s.runState = .stopped) : StaysStopped s s :=
  ⟨h, rfl, rfl, rfl, rfl, rfl, rfl⟩

/-- An answer at the port is no part of it. -/
theorem StaysStopped.deliver (h : StaysStopped s t) (r : OpResult) : StaysStopped s (t.deliver r) :=
  { h with }

theorem transact_staysStopped (h : s.runState = .stopped) (mode : Mode) (channel : BitVec 8) :
    StaysStopped s (transact mode channel s).2 := by
  obtain ⟨_, e⟩ | ⟨_, tx, _, ⟨rx, _, e⟩ | ⟨_, e⟩⟩ := transact_cases mode channel s <;> rw [e]
  · exact .refl h
  · exact ⟨h, rfl, rfl, rfl, rfl, by simp, by simp⟩
  · exact ⟨h, rfl, rfl, rfl, rfl, by simp, by simp⟩

theorem advance_staysStopped (h : s.runState = .stopped) : StaysStopped s s.advance :=
  ⟨h, rfl, rfl, rfl, rfl, by simp, by simp⟩

/-- No operation but RESET leaves Stopped (R93, R105). -/
theorem exec_staysStopped (h : s.runState = .stopped) (hi : i ≠ .reset) (he : exec i s = .next t) :
    StaysStopped s t := by
  cases i <;> cases he <;> apply StaysStopped.deliver
  case encode | rsp | decode | current => exact .refl h
  case cmdSe | cmdDiff | transact | read => exact transact_staysStopped h _ _
  case advance => exact advance_staysStopped h
  case iterate => rw [iterate_of_stopped h]; exact .refl h
  case stop => rw [stopLoop_of_stopped h]; exact .refl h
  case reset => exact absurd rfl hi

/-- In Stopped only RESET and a direct ADVANCE move the index (R93). -/
theorem exec_idx_of_stopped (h : s.runState = .stopped) (hi : i ≠ .reset)
    (he : exec i s = .next t) : t.idx = s.idx ∨ i = .advance := by
  obtain rfl | rfl | ⟨rfl, _⟩ | ⟨rfl, rfl⟩ | ⟨hblock, _⟩ := exec_block_cases he
  · exact absurd rfl hi
  · cases he
    exact .inl (by rw [deliver_idx, iterate_of_stopped h])
  · exact .inr rfl
  · exact .inl (by rw [deliver_idx, stopLoop_of_stopped h])
  · exact .inl hblock.idx

end Sys2Proof.Machine

namespace Sys2Proof.Proofs

open Sys2Proof.Machine

/-- Settles O33: the stop check comes before the six steps, and the run state before the check. -/
theorem iterateHonoursStopAndStopped : Obligations.IterateHonoursStopAndStopped := by
  intro s
  refine ⟨fun hrun hstop => ?stop, fun hstopped => ?stopped⟩
  case stop => rw [exec_iterate, iterate_of_stop hrun hstop]; rfl
  case stopped => rw [exec_iterate, iterate_of_stopped hstopped]; rfl

/-- Settles O36, by the run state. -/
theorem stopEntersStopped : Obligations.StopEntersStopped := by
  intro s
  refine ⟨fun hrun => ?running, fun hstopped => ?stopped⟩
  case running => rw [exec_stop, stopLoop_of_running hrun]; rfl
  case stopped => rw [exec_stop, stopLoop_of_stopped hstopped]; rfl

/-- Settles O48, by what the step was: the block alone stands still, the host's moves write inputs
and the port, and of the operations ADVANCE alone moves the index. -/
theorem stoppedIsFinalUntilReset : Obligations.StoppedIsFinalUntilReset := by
  intro s t hstopped hno hstep
  suffices hkept : StaysStopped s t ∧
      (t.idx = s.idx ∨ ∃ w rest, s.inbox = .command w :: rest ∧ decode w = .ok .advance) by
    obtain ⟨⟨hrun, hcause, hmode, hbuf, hphase, hrecords, hstops⟩, hidx⟩ := hkept
    exact ⟨hrun, hcause, hmode, hbuf, hphase, hrecords, hstops, hidx⟩
  have hsame : StaysStopped s s := .refl hstopped
  obtain ⟨_, ⟨_, rfl⟩ | ⟨rest, _, rfl⟩ | ⟨rest, hin, rfl⟩ | ⟨b, rest, _, rfl⟩ | ⟨m, rest, _, rfl⟩ |
    ⟨b, g, rest, _, rfl⟩ | ⟨i, v, rest, _, _, _, rfl⟩ | ⟨w, i, rest, hin, hd, _, he⟩ |
    ⟨w, i, rest, _, _, _, rfl⟩⟩ := step_cases hstep
  · rw [freeRun_of_stopped hstopped]
    exact ⟨hsame, .inl rfl⟩
  · rw [freeRun_of_stopped (s := { s with inbox := rest }) hstopped]
    exact ⟨{ hsame with }, .inl rfl⟩
  · simp [State.resetsNow, hin] at hno
  · exact ⟨{ hsame with }, .inl rfl⟩
  · exact ⟨{ hsame with }, .inl rfl⟩
  · exact ⟨{ hsame with }, .inl rfl⟩
  · exact ⟨{ hsame with }, .inl rfl⟩
  · have hi : i ≠ .reset := ne_reset_of_resetsNow_eq_false hno hin hd
    refine ⟨{ exec_staysStopped (s := { s with inbox := rest }) hstopped hi he with }, ?_⟩
    obtain hidx | rfl := exec_idx_of_stopped (s := { s with inbox := rest }) hstopped hi he
    · exact .inl hidx
    · exact .inr ⟨w, rest, hin, hd⟩
  · rw [freeRun_of_stopped hstopped]
    exact ⟨hsame, .inl rfl⟩

end Sys2Proof.Proofs
end

section
/-! O50, O51: what the loop sends, and when it looks at the stop signal (R82, R90, R92). -/

namespace Sys2Proof.Machine

variable {s t u : State} {mode : Mode} {r : Nat}

/-- The step of a block whose host is quiet. -/
theorem eq_freeRun_of_step (hin : s.inbox = []) (h : step s = .next t) :
    s.configLegal = true ∧ t = s.freeRun := by
  cases hc : s.configLegal with
  | false => cases (step_of_configLegal_eq_false hc).symm.trans h
  | true =>
    cases (step_of_inbox_nil hc hin).symm.trans h
    exact ⟨rfl, rfl⟩

/-- Bit 7 of byte 1 is the mode's: 8 of the selector number, and no channel of the device reaches it
(R44). -/
theorem getLsbD_seven_commandFrame (mode : Mode) {channel : BitVec 8} (h : channel.toNat ≤ 7) :
    (commandFrame mode channel).b1.getLsbD 7 = decide (mode = .singleEnded) := by
  have hmsb : (commandFrame mode channel).b1.getLsbD 7 =
      decide (2 ^ 7 ≤ (commandFrame mode channel).b1.toNat) :=
    (BitVec.msb_eq_getLsbD_last _).symm.trans (BitVec.msb_eq_decide _)
  rw [hmsb]
  cases mode <;> simp [commandFrame] <;> omega

/-- From `s` to `t` events are only added, and every exchange among them carries the bit of `mode`. -/
def SendsInMode (mode : Mode) (s t : State) : Prop :=
  ∃ es, t.events = s.events ++ es ∧
    ∀ tx r, (tx, r) ∈ exchanges es → tx.b1.getLsbD 7 = decide (mode = .singleEnded)

/-- What adds no exchange sends nothing in any mode. -/
theorem AddsAtMost.sendsInMode (h : AddsAtMost 0 r s t) : SendsInMode mode s t := by
  obtain ⟨es, hevents, hexchanges, -⟩ := h
  have hnone : exchanges es = [] := List.length_eq_zero_iff.mp (Nat.le_zero.mp hexchanges)
  exact ⟨es, hevents, by simp [hnone]⟩

theorem SendsInMode.of_events_eq (h : t.events = s.events) : SendsInMode mode s t :=
  (AddsAtMost.of_events_eq (r := 0) h).sendsInMode

theorem SendsInMode.trans (h : SendsInMode mode s t) (h' : SendsInMode mode t u) :
    SendsInMode mode s u := by
  obtain ⟨es, hevents, hmode⟩ := h
  obtain ⟨es', hevents', hmode'⟩ := h'
  refine ⟨es ++ es', by rw [hevents', hevents, List.append_assoc], fun tx r hmem => ?_⟩
  rw [exchanges_append, List.mem_append] at hmem
  exact hmem.elim (hmode tx r) (hmode' tx r)

/-- What adds one exchange, of a command frame of the mode, sends in the mode. -/
theorem SendsInMode.of_one {es : List Event} {channel : BitVec 8} {a : BusResult}
    (hc : channel.toNat ≤ 7) (hevents : t.events = s.events ++ es)
    (hone : exchanges es = [(commandFrame mode channel, a)]) : SendsInMode mode s t := by
  refine ⟨es, hevents, fun tx r hmem => ?_⟩
  rw [hone, List.mem_singleton] at hmem
  cases hmem
  exact getLsbD_seven_commandFrame mode hc

/-- Step 2 sends in the session's mode; no other step sends (R82). -/
theorem stepP2_sendsInMode (s : State) : SendsInMode s.modeQ s (stepP2 s) := by
  by_cases hc : s.cur.toNat ≤ 7
  · have hchannel : (channelOfIndex s.cur).toNat ≤ 7 := (channelOfIndex_toNat s.cur).trans_le hc
    cases ha : s.busAnswer with
    | ok rx =>
      rw [stepP2_of_ok hc ha]
      exact .of_one hchannel rfl rfl
    | fail =>
      rw [stepP2_of_fail hc ha]
      exact .of_one hchannel rfl rfl
  · rw [stepP2_outside (Nat.lt_of_not_le hc)]
    exact .of_events_eq rfl

theorem iterate_sendsInMode (s : State) : SendsInMode s.modeQ s s.iterate := by
  obtain ⟨_, e⟩ | ⟨_, _, e⟩ | ⟨_, _, e⟩ := iterate_cases s <;> rw [e]
  · exact .of_events_eq rfl
  · exact (stopEntry_addsAtMost s _).sendsInMode
  · have h2 : SendsInMode s.modeQ s (stepP2 (stepP1 s)) := stepP2_sendsInMode (stepP1 s)
    exact h2.trans (continueIteration_addsAtMost _).sendsInMode

theorem freeRun_sendsInMode (s : State) : SendsInMode s.modeQ s s.freeRun := by
  obtain ⟨_, e⟩ | ⟨_, ⟨_, _, e⟩ | ⟨_, _, e⟩ | ⟨_, e⟩ | ⟨_, e⟩ | ⟨_, e⟩ | ⟨_, e⟩ | ⟨_, e⟩⟩ :=
    freeRun_cases s <;> rw [e]
  case inl => exact .of_events_eq rfl
  · exact (stopEntry_addsAtMost s _).sendsInMode
  · exact .of_events_eq rfl
  · exact stepP2_sendsInMode s
  · exact (stepP3_addsAtMost s).sendsInMode
  · exact (stepP4_addsAtMost s).sendsInMode
  · exact (stepP5_addsAtMost s).sendsInMode
  · exact (advance_addsAtMost s).sendsInMode

end Sys2Proof.Machine

namespace Sys2Proof.Proofs

open Sys2Proof.Machine

/-- Settles O50: ITERATE and the block alone send in step 2 only. -/
theorem loopExchangesCarryTheSessionMode : Obligations.LoopExchangesCarryTheSessionMode := by
  rintro s t (he | ⟨hin, hstep⟩)
  · cases he
    exact iterate_sendsInMode s
  · obtain ⟨_, rfl⟩ := eq_freeRun_of_step hin hstep
    exact freeRun_sendsInMode s

/-- Settles O51: away from the boundary a change of the level passes through the block's step unseen. -/
theorem stopSignalDoesNotTearAnIteration : Obligations.StopSignalDoesNotTearAnIteration := by
  intro s t b hin hp hstep
  obtain ⟨hc, rfl⟩ := eq_freeRun_of_step hin hstep
  have hunseen := freeRun_mapHost (f := fun x => { x with stop := b }) id s
    ⟨fun _ => rfl, fun _ => rfl⟩ fun hp1 => absurd hp1 hp
  exact (step_of_inbox_nil (s := s.mapHost (fun x => { x with stop := b }) id) hc hin).trans
    (congrArg Host.Outcome.next hunseen)

end Sys2Proof.Proofs
end

section
/-! O29, O32, O35: ITERATE's iteration, and iterations in a row from RESET (R87, R88, R91). -/

namespace Sys2Proof.Machine

variable {s : State} {rx : Frame} {x : Inputs} {k m : Nat}

/-! One iteration -/

/-- An iteration that neither step 2 nor step 5 ends is its six steps. -/
theorem iterate_of_running (hrun : s.runState = .running) (hstop : s.inputs.stop = false)
    (hrun2 : (stepP2 (stepP1 s)).runState = .running)
    (hrun5 : (stepP5 (stepP4 (stepP3 (stepP2 (stepP1 s))))).runState = .running) :
    s.iterate = stepP6 (stepP5 (stepP4 (stepP3 (stepP2 (stepP1 s))))) := by
  simp only [State.iterate, hrun, hstop, Bool.false_eq_true, ↓reduceIte, continueIteration, hrun2,
    finishIteration, hrun5]

/-- Steps 1 to 5 with a reply and a sink that accepts. -/
theorem firstFiveSteps_of_ok (hidx : s.idx.toNat ≤ 7) (ha : s.busAnswer = .ok rx)
    (hsink : State.sinkAnswer { s with draws := s.draws + 1 } = .ok) :
    stepP5 (stepP4 (stepP3 (stepP2 (stepP1 s)))) =
      { s with
        cur := s.idx, val := valueOf rx, valOk := true, phase := .p6
        buf := s.buf.write s.idx.toNat (valueOf rx)
        events := s.events ++
          [.exchange (commandFrame s.modeQ (channelOfIndex s.idx)) (.ok rx),
            .store s.idx (valueOf rx), .delay, .record s.idx (valueOf rx) .ok]
        busScript := s.busScript.tail, sinkScript := s.sinkScript.tail, draws := s.draws + 2 } := by
  rw [stepP2_of_ok (s := stepP1 s) hidx ha, stepP3_of_value rfl hidx, stepP5_of_ok]
  case hv => rfl
  case ha => exact hsink
  simp [stepP4, State.emit, stepP1]

/-- Steps 1 to 5 outside the device's channels: there is no value to store or to record. -/
theorem firstFiveSteps_outside (hidx : 8 ≤ s.idx.toNat) :
    stepP5 (stepP4 (stepP3 (stepP2 (stepP1 s)))) =
      { s with
        cur := s.idx, val := Config.openVal s.draws, valOk := false, phase := .p6
        events := s.events ++ [.delay], draws := s.draws + 1 } := by
  rw [stepP2_outside (s := stepP1 s) hidx, stepP3_of_nothing (by simp)]
  exact stepP5_of_nothing rfl

/-- A normal iteration ends with step 6 (R88). -/
theorem iterate_of_ok (hrun : s.runState = .running) (hstop : s.inputs.stop = false)
    (hidx : s.idx.toNat ≤ 7) (ha : s.busAnswer = .ok rx)
    (hsink : State.sinkAnswer { s with draws := s.draws + 1 } = .ok) :
    s.iterate = stepP6 (stepP5 (stepP4 (stepP3 (stepP2 (stepP1 s))))) := by
  apply iterate_of_running hrun hstop
  · rw [stepP2_of_ok (s := stepP1 s) hidx ha]
    exact hrun
  · rw [firstFiveSteps_of_ok hidx ha hsink]
    exact hrun

/-- So does the invalid-channel iteration (R87). -/
theorem iterate_outside (hrun : s.runState = .running) (hstop : s.inputs.stop = false)
    (hidx : 8 ≤ s.idx.toNat) :
    s.iterate = stepP6 (stepP5 (stepP4 (stepP3 (stepP2 (stepP1 s))))) := by
  apply iterate_of_running hrun hstop
  · rw [stepP2_outside (s := stepP1 s) hidx]
    exact hrun
  · rw [firstFiveSteps_outside hidx]
    exact hrun

/-! Iterations in a row: the channels visited -/

/-- The channel that the `k`-th iteration of a session reads (R76). -/
def Inputs.channel (x : Inputs) (k : Nat) : Nat :=
  channelAt x.cfgWrapPolicy x.cfgChannelCount.toNat k

/-- The first `n` iterations' numbers, those that read no channel of the device left out (R87, R91). -/
def Inputs.visited (x : Inputs) (n : Nat) : List Nat :=
  (List.range n).filter (fun k => x.channel k ≤ 7)

theorem visited_succ_of_le (h : x.channel k ≤ 7) : x.visited (k + 1) = x.visited k ++ [k] := by
  simp [Inputs.visited, List.range_succ, h]

theorem visited_succ_of_ge (h : 8 ≤ x.channel k) : x.visited (k + 1) = x.visited k := by
  simp [Inputs.visited, List.range_succ, Nat.lt_of_succ_le h]

/-- One channel more is visited: what the buffer shows of it and of the others (R18). -/
theorem stored_snoc {α : Type} (l : List Nat) (n i : Nat) (v : α) :
    (if i ∈ l ++ [n] then some v else none) =
      if i = n then some v else if i ∈ l then some v else none := by
  by_cases hi : i = n <;> simp [hi]

/-! Iterations in a row: the answers to come -/

theorem busAnswer_of_replicate (h : List.replicate (m + 1) (.ok rx) <+: s.busScript) :
    s.busAnswer = .ok rx := by
  obtain ⟨rest, hrest⟩ := h
  simp [State.busAnswer, ← hrest, List.replicate_succ]

theorem sinkAnswer_of_replicate (h : List.replicate (m + 1) .ok <+: s.sinkScript) :
    s.sinkAnswer = .ok := by
  obtain ⟨rest, hrest⟩ := h
  simp [State.sinkAnswer, ← hrest, List.replicate_succ]

/-- The first of `m + 1` answers is taken. -/
theorem replicate_isPrefix_tail {α : Type} {a : α} {l : List α}
    (h : List.replicate (m + 1) a <+: l) : List.replicate m a <+: l.tail := by
  rw [← List.drop_one]
  exact h.drop 1

/-- Answers to `m + 1` requests are answers to `m`. -/
theorem replicate_isPrefix_of_succ {α : Type} {a : α} {l : List α}
    (h : List.replicate (m + 1) a <+: l) : List.replicate m a <+: l := by
  rw [List.replicate_succ'] at h
  exact List.IsPrefix.trans ⟨[a], rfl⟩ h

/-! Iterations in a row: the invariant -/

/-- `k` iterations of a session under the inputs `x` are over, each exchange answered with `rx` and
each append accepted, and `m` more will be answered so (R91). -/
structure SampledUpTo (x : Inputs) (rx : Frame) (k m : Nat) (s : State) : Prop where
  inputs : s.inputs = x
  configLegal : s.configLegal = true
  stopLow : s.inputs.stop = false
  running : s.runState = .running
  noCause : s.stopCause = .none
  index : s.idx.toNat = x.channel k
  persisted : persisted s.events =
    (x.visited k).map (fun j => (BitVec.ofNat 4 (x.channel j), valueOf rx))
  exchanged : (exchanges s.events).length = (x.visited k).length
  stored : ∀ i, s.buf.read i = if i ∈ (x.visited k).map x.channel then some (valueOf rx) else none
  busAnswers : List.replicate m (.ok rx) <+: s.busScript
  sinkAnswers : List.replicate m .ok <+: s.sinkScript

/-- An iteration extends it: by one channel of the device, or by none. -/
theorem SampledUpTo.iterate (h : SampledUpTo x rx k (m + 1) s) :
    SampledUpTo x rx (k + 1) m (s.iterate.deliver .none) := by
  have hnext : s.advance.idx.toNat = x.channel (k + 1) := by
    rw [← h.inputs]
    exact advance_idx_eq_channelAt h.configLegal (by rw [h.inputs]; exact h.index)
  have hidx : BitVec.ofNat 4 (x.channel k) = s.idx := by
    rw [← h.index, BitVec.ofNat_toNat, BitVec.setWidth_eq]
  by_cases hc : x.channel k ≤ 7
  · have hle : s.idx.toNat ≤ 7 := h.index.trans_le hc
    have ha : s.busAnswer = .ok rx := busAnswer_of_replicate h.busAnswers
    have hsink : State.sinkAnswer { s with draws := s.draws + 1 } = .ok :=
      sinkAnswer_of_replicate (s := { s with draws := s.draws + 1 }) h.sinkAnswers
    rw [iterate_of_ok h.running h.stopLow hle ha hsink, firstFiveSteps_of_ok hle ha hsink]
    exact { h with
      index := hnext
      persisted := by simp [stepP6, visited_succ_of_le hc, h.persisted, hidx]
      exchanged := by simp [stepP6, visited_succ_of_le hc, h.exchanged]
      stored := fun i => by
        rw [visited_succ_of_le hc, List.map_append, List.map_singleton, stored_snoc, ← h.stored i,
          ← h.index]
        exact Memory.read_write s.buf s.idx.toNat i _
      busAnswers := replicate_isPrefix_tail h.busAnswers
      sinkAnswers := replicate_isPrefix_tail h.sinkAnswers }
  · have hlarge : 8 ≤ x.channel k := Nat.lt_of_not_le hc
    have hge : 8 ≤ s.idx.toNat := hlarge.trans_eq h.index.symm
    rw [iterate_outside h.running h.stopLow hge, firstFiveSteps_outside hge]
    exact { h with
      index := hnext
      persisted := by simp [stepP6, visited_succ_of_ge hlarge, h.persisted]
      exchanged := by simp [stepP6, visited_succ_of_ge hlarge, h.exchanged]
      stored := fun i => by rw [visited_succ_of_ge hlarge]; exact h.stored i
      busAnswers := replicate_isPrefix_of_succ h.busAnswers
      sinkAnswers := replicate_isPrefix_of_succ h.sinkAnswers }

theorem SampledUpTo.runOps_iterates (h : SampledUpTo x rx k m s) :
    ∃ t, runOps (List.replicate m .iterate) s = .next t ∧ SampledUpTo x rx (k + m) 0 t := by
  induction m generalizing s k with
  | zero => exact ⟨s, rfl, h⟩
  | succ m ih =>
    obtain ⟨t, hrun, ht⟩ := ih h.iterate
    exact ⟨t, hrun, Nat.succ_add_eq_add_succ k m ▸ ht⟩

/-- RESET begins a session (R113, R114). -/
theorem resetBlock_sampledUpTo (hc : s.configLegal = true) (hbus : s.inputs.initBusOk = true)
    (hgpio : s.inputs.initGpioOk = true) (hstop : s.inputs.stop = false)
    (hbusAnswers : List.replicate m (.ok rx) <+: s.busScript)
    (hsinkAnswers : List.replicate m .ok <+: s.sinkScript) :
    SampledUpTo s.inputs rx 0 m s.resetBlock := by
  have hidx : (0#4).toNat = s.inputs.channel 0 := by
    rw [Inputs.channel, channelAt_eq_mod, Nat.zero_mod]
    rfl
  simp only [State.resetBlock, State.startUp, hbus, hgpio, Bool.true_eq_false, ↓reduceIte]
  exact ⟨rfl, hc, hstop, rfl, rfl, hidx, rfl, rfl, fun _ => rfl, hbusAnswers, hsinkAnswers⟩

end Sys2Proof.Machine

namespace Sys2Proof.Proofs

open Sys2Proof.Machine

/-- Settles O29: the six steps end at the boundary, with the events of each in a row. -/
theorem iterateSamplesOneChannel : Obligations.IterateSamplesOneChannel := by
  intro s rx hrun hstop hidx ha hsink
  rw [exec_iterate, iterate_of_ok hrun hstop hidx ha hsink,
    firstFiveSteps_of_ok hidx ha hsink, ← nextIndex_eq_advancedIndex]
  refine ⟨_, _, rfl, rfl, ?events, rfl, fun k => Memory.read_write s.buf s.idx.toNat k _, rfl, hrun,
    rfl, rfl, rfl, rfl, rfl, rfl, rfl⟩
  case events => simp [stepP6, channelOfIndex]

/-- Settles O32: with no value, steps 3 and 5 move the step pointer only. -/
theorem iterateAbsorbsInvalidChannel : Obligations.IterateAbsorbsInvalidChannel := by
  intro s hrun hstop hidx
  rw [exec_iterate, iterate_outside hrun hstop hidx, firstFiveSteps_outside hidx,
    ← nextIndex_eq_advancedIndex]
  refine ⟨_, _, rfl, rfl, ?events, rfl, rfl, rfl, hrun, rfl, rfl, rfl, rfl, rfl, rfl, rfl⟩
  case events => simp [stepP6]

/-- Settles O35, by induction on the iterations from the session that RESET begins. -/
theorem iterationsRecordTheChannelsInOrder : Obligations.IterationsRecordTheChannelsInOrder := by
  intro s rx n bus sink hc hbus hgpio hstop hbusScript hsinkScript c visited
  have hstart : SampledUpTo s.inputs rx 0 n (s.resetBlock.deliver .none) :=
    { resetBlock_sampledUpTo hc hbus hgpio hstop ⟨bus, hbusScript.symm⟩
        ⟨sink, hsinkScript.symm⟩ with }
  obtain ⟨t, hrun, ht⟩ := hstart.runOps_iterates
  rw [Nat.zero_add] at ht
  refine ⟨t, hrun, ht.persisted, ht.exchanged, ht.index, fun k hk => ?visited, fun i hi => ?other,
    ht.running, ht.noCause⟩
  case visited => exact (ht.stored _).trans (if_pos (List.mem_map_of_mem hk))
  case other =>
    refine (ht.stored i).trans (if_neg fun hmem => ?_)
    obtain ⟨k, hk, hki⟩ := List.mem_map.mp hmem
    exact hi k hk hki

end Sys2Proof.Proofs
end

section
/-! O30, O31, O38, O42, O44: the failures that end an iteration, and what the step does with a reset
and with a command (R98, R99, R101 to R103, R112). -/

namespace Sys2Proof.Machine

variable {s t : State} {rx : Frame}

/-! The fatal ends of an iteration -/

/-- Where step 2 is fatal, nothing of the iteration follows it (R98). -/
theorem iterate_of_fatal_stepP2 (hrun : s.runState = .running) (hstop : s.inputs.stop = false)
    (hfatal : (stepP2 (stepP1 s)).runState = .stopped) : s.iterate = stepP2 (stepP1 s) := by
  simp only [State.iterate, hrun, hstop, Bool.false_eq_true, ↓reduceIte, continueIteration, hfatal]

/-- Where step 5 is fatal, step 6 does not follow it (R99). -/
theorem iterate_of_fatal_stepP5 (hrun : s.runState = .running) (hstop : s.inputs.stop = false)
    (hrun2 : (stepP2 (stepP1 s)).runState = .running)
    (hfatal : (stepP5 (stepP4 (stepP3 (stepP2 (stepP1 s))))).runState = .stopped) :
    s.iterate = stepP5 (stepP4 (stepP3 (stepP2 (stepP1 s)))) := by
  simp only [State.iterate, hrun, hstop, Bool.false_eq_true, ↓reduceIte, continueIteration, hrun2,
    finishIteration, hfatal]

/-- Steps 1 to 5 with a reply and a sink that fails: Stopped, with the value stored. -/
theorem firstFiveSteps_of_sink_fail (hidx : s.idx.toNat ≤ 7) (ha : s.busAnswer = .ok rx)
    (hsink : State.sinkAnswer { s with draws := s.draws + 1 } = .fail) :
    stepP5 (stepP4 (stepP3 (stepP2 (stepP1 s)))) =
      { s with
        cur := s.idx, val := valueOf rx, valOk := true, phase := .p5
        buf := s.buf.write s.idx.toNat (valueOf rx)
        runState := .stopped, stopCause := .sinkFailure
        events := s.events ++
          [.exchange (commandFrame s.modeQ (channelOfIndex s.idx)) (.ok rx),
            .store s.idx (valueOf rx), .delay, .record s.idx (valueOf rx) .fail, .stop .sinkFailure]
        busScript := s.busScript.tail, sinkScript := s.sinkScript.tail, draws := s.draws + 2 } := by
  rw [stepP2_of_ok (s := stepP1 s) hidx ha, stepP3_of_value rfl hidx, stepP5_of_fail]
  case hv => rfl
  case ha => exact hsink
  simp [stepP4, State.emit, stepP1]

/-! The session that a reset starts -/

/-- RESET establishes R113 to R115, whatever the block was doing. -/
theorem resetBlock_freshSession (s : State) : FreshSession s s.resetBlock := by
  unfold State.resetBlock
  obtain ⟨hbus, e⟩ | ⟨hbus, hgpio, e⟩ | ⟨hbus, hgpio, e⟩ := startUp_cases
    { s with idx := 0#4, phase := .p1, modeQ := s.inputs.cfgMode, buf := [] } <;> rw [e]
  case inl =>
    exact ⟨rfl, rfl, rfl, rfl, fun _ => rfl, fun _ => ⟨rfl, rfl, rfl⟩,
      fun h => (nomatch hbus.symm.trans h), fun h => (nomatch hbus.symm.trans h),
      rfl, rfl, rfl⟩
  case inr.inl =>
    exact ⟨rfl, rfl, rfl, rfl, fun _ => rfl, fun h => (nomatch hbus.symm.trans h),
      fun _ _ => ⟨rfl, rfl, rfl⟩, fun _ h => (nomatch hgpio.symm.trans h), rfl, rfl, rfl⟩
  case inr.inr =>
    exact ⟨rfl, rfl, rfl, rfl, fun _ => rfl, fun h => (nomatch hbus.symm.trans h),
      fun _ h => (nomatch hgpio.symm.trans h), fun _ _ => ⟨rfl, rfl, rfl⟩, rfl, rfl, rfl⟩

/-- The answer at the port is no part of the session. -/
theorem FreshSession.deliver (h : FreshSession s t) (r : OpResult) :
    FreshSession s (t.deliver r) := { h with }

/-- Nor does the session depend on the host's moves to come. -/
theorem FreshSession.of_setInbox {moves : List HostMove}
    (h : FreshSession { s with inbox := moves } t) : FreshSession s t := { h with }

/-! A command at the port -/

/-- The block alone leaves the host's moves where they are. -/
@[simp] theorem freeRun_inbox (s : State) : s.freeRun.inbox = s.inbox :=
  (congrArg State.inbox (freeRun_setInbox s s.inbox) :)

/-- A command that is not taken waits, and the block takes its own step (R101). -/
theorem step_of_command_waiting {w : PortWord} {rest : List HostMove} {i : Instr}
    (hc : s.configLegal = true) (hin : s.inbox = .command w :: rest) (hd : decode w = .ok i)
    (hwaits : ¬ (isReset i || s.acceptsCommand) = true) : step s = .next s.freeRun := by
  rw [step_of_inbox_cons hc hin]
  simp only [serveMove, runCommand, hd]
  exact if_neg hwaits

/-- When a command is taken: RESET always, any other in Stopped or at the boundary (R101, R102). -/
theorem command_taken_iff (i : Instr) (s : State) :
    (isReset i || s.acceptsCommand) = true ↔
      i = .reset ∨ s.runState = .stopped ∨ s.phase = .p1 := by
  rw [Bool.or_eq_true, isReset_iff, acceptsCommand_iff]

end Sys2Proof.Machine

namespace Sys2Proof.Proofs

open Sys2Proof.Machine

/-- Settles O30: step 2's failed exchange is the last thing the iteration does. -/
theorem iterateEndsAtBusFailure : Obligations.IterateEndsAtBusFailure := by
  intro s hrun hstop hidx ha
  have hfatal := stepP2_of_fail (s := stepP1 s) hidx ha
  rw [exec_iterate, iterate_of_fatal_stepP2 hrun hstop (by rw [hfatal]), hfatal]
  rfl

/-- Settles O31: step 3 has stored the value when step 5's failed append ends the iteration. -/
theorem iterateEndsAtSinkFailure : Obligations.IterateEndsAtSinkFailure := by
  intro s rx hrun hstop hidx ha hsink
  have hfatal := firstFiveSteps_of_sink_fail hidx ha hsink
  have hrun2 : (stepP2 (stepP1 s)).runState = .running := by
    rw [stepP2_of_ok (s := stepP1 s) hidx ha]
    exact hrun
  rw [exec_iterate, iterate_of_fatal_stepP5 hrun hstop hrun2 (by rw [hfatal]), hfatal]
  exact ⟨_, rfl, fun k => Memory.read_write s.buf s.idx.toNat k _⟩

/-- Settles O38: the `reset` input and the RESET operation are served whatever the phase and the run
state are, and both start the session that `State.resetBlock` gives. -/
theorem resetIsHonouredAtAnyMoment : Obligations.ResetIsHonouredAtAnyMoment := by
  intro s rest hc
  have hfresh : FreshSession s (State.resetBlock { s with inbox := rest }) :=
    (resetBlock_freshSession _).of_setInbox
  obtain ⟨-, hinbox, -⟩ := resetBlock_keeps { s with inbox := rest }
  refine ⟨fun hin => ?input, fun w hin hd => ?operation⟩
  case input => exact ⟨_, step_of_inbox_cons hc hin, hfresh, hinbox⟩
  case operation =>
    exact ⟨_, step_of_command_taken hc hin hd ((command_taken_iff .reset s).mpr (.inl rfl)),
      hfresh.deliver .none, hinbox⟩

/-- Settles O44: the command is not taken, and the block's own step neither looks at the host's
moves nor changes them. -/
theorem commandWaitsForTheBoundary : Obligations.CommandWaitsForTheBoundary := by
  intro s w i rest hc hin hd hi hrun hphase
  have hwaits : ¬ (isReset i || s.acceptsCommand) = true := by
    rw [command_taken_iff]
    rintro (hreset | hstopped | hp1)
    · exact hi hreset
    · exact ne_stopped_of_running hrun hstopped
    · exact hphase hp1
  refine ⟨s.freeRun, step_of_command_waiting hc hin hd hwaits, freeRun_inbox s, ?alone⟩
  case alone =>
    rw [← freeRun_setInbox]
    exact step_of_inbox_nil (s := { s with inbox := [] }) hc rfl

/-- Settles O42: under these conditions the command is taken. -/
theorem stepRunsTheDecodedInstruction : Obligations.StepRunsTheDecodedInstruction :=
  fun s _ i _ hc hin hd hat => step_of_command_taken hc hin hd ((command_taken_iff i s).mpr hat)

end Sys2Proof.Proofs
end

section
/-! O37, O39: RESET as an operation at the port (R113 to R115). -/

namespace Sys2Proof.Machine

variable {s t u : State}

theorem exec_reset (s : State) : exec .reset s = .next (s.resetBlock.deliver .none) := rfl

/-- The operation starts the same session as the `reset` input does. -/
theorem resetBlock_deliver_freshSession (s : State) :
    FreshSession s (s.resetBlock.deliver .none) := (resetBlock_freshSession s).deliver .none

/-- A fresh session keeps what a reset reads, so that a second reset starts the session of the
first. -/
theorem FreshSession.trans (h : FreshSession s t) (h' : FreshSession t u) : FreshSession s u where
  idx := h'.idx
  phase := h'.phase
  modeQ := h.inputs ▸ h'.modeQ
  bufListsNothing := h'.bufListsNothing
  bufEmpty := h'.bufEmpty
  busFailed := h.inputs ▸ h'.busFailed
  gpioFailed := h.inputs ▸ h'.gpioFailed
  started := h.inputs ▸ h'.started
  inputs := h'.inputs.trans h.inputs
  busScript := h'.busScript.trans h.busScript
  sinkScript := h'.sinkScript.trans h.sinkScript

/-- The two initialisation outcomes fix how a session starts (R114). -/
theorem FreshSession.start_unique (ht : FreshSession s t) (hu : FreshSession s u) :
    u.runState = t.runState ∧ u.stopCause = t.stopCause ∧ u.events = t.events := by
  have agree {r : RunState} {c : StopCause} {es : List Event}
      (ht : t.runState = r ∧ t.stopCause = c ∧ t.events = es)
      (hu : u.runState = r ∧ u.stopCause = c ∧ u.events = es) :
      u.runState = t.runState ∧ u.stopCause = t.stopCause ∧ u.events = t.events := by
    simp only [ht, hu, and_self]
  cases hbus : s.inputs.initBusOk with
  | false => exact agree (ht.busFailed hbus) (hu.busFailed hbus)
  | true =>
    cases hgpio : s.inputs.initGpioOk with
    | false => exact agree (ht.gpioFailed hbus hgpio) (hu.gpioFailed hbus hgpio)
    | true => exact agree (ht.started hbus hgpio) (hu.started hbus hgpio)

end Sys2Proof.Machine

namespace Sys2Proof.Proofs

open Sys2Proof.Machine

/-- Settles O37: the operation is `State.resetBlock` and an answer at the port that the session does
not contain. -/
theorem resetStartsAFreshSession : Obligations.ResetStartsAFreshSession := by
  intro s
  obtain ⟨-, hinbox, -⟩ := resetBlock_keeps s
  exact ⟨_, exec_reset s, resetBlock_deliver_freshSession s, hinbox⟩

/-- Settles O39: the second RESET reads only the inputs, which the first left, so both start the
session of the same state. -/
theorem resetTwiceIsResetOnce : Obligations.ResetTwiceIsResetOnce := by
  intro s
  have hfirst := resetBlock_deliver_freshSession s
  have hsecond := hfirst.trans (resetBlock_deliver_freshSession _)
  obtain ⟨hrun, hcause, hevents⟩ := hfirst.start_unique hsecond
  exact ⟨_, _, rfl, rfl, hsecond.idx.trans hfirst.idx.symm, hrun, hcause,
    hsecond.modeQ.trans hfirst.modeQ.symm,
    hsecond.bufListsNothing.trans hfirst.bufListsNothing.symm,
    hsecond.phase.trans hfirst.phase.symm, hevents⟩

end Sys2Proof.Proofs
end
